-- ==== Sys2Proof/Word.lean ====
section
/-! DEFINITION. The word types of the machine: bytes, register numbers, the 64-bit container that holds an
XLEN-bit or FLEN-bit value, and the two values of XLEN (00_scope.md R7). -/

namespace Sys2Proof

/-- One byte of memory (10_state.md R32). -/
abbrev Byte := BitVec 8

/-- The container of a register value or an address. With XLEN = 32 (or FLEN = 32) the value is the low 32 bits and the
high 32 bits are zero. -/
abbrev Word := BitVec 64

/-- A register field of an instruction: `rd`, `rs1`, `rs2` or `rs3` (30_encoding.md R131, R133). -/
abbrev Reg := BitVec 5

/-- The parameter XLEN (00_scope.md R7): the width of an integer register and of an address. -/
inductive Xlen where
  /-- XLEN = 32 -/
  | rv32
  /-- XLEN = 64 -/
  | rv64
  deriving DecidableEq, Repr

/-- XLEN in bits. -/
def Xlen.bits : Xlen → Nat
  | .rv32 => 32
  | .rv64 => 64

end Sys2Proof
end

