-- ==== Sys2Proof/Config.lean ====
section
/-! DEFINITION. The parameters a run is made with (00_scope.md R7), and the free values: what the spec leaves to a draw or
to a parameter without a value, as constants that no proof can see through. -/

namespace Sys2Proof

/-- The parameter EXT (00_scope.md R7, 92_eei_decisions.md D15): which listing groups are present beside the base integer
listings. `c` says whether compressed instructions are present, which fixes the alignment of jump targets (90_conflicts.md
C7). -/
structure Ext where
  /-- M: 42_m.md -/
  m : Bool
  /-- A: 43_a.md -/
  a : Bool
  /-- F: 44_f.md -/
  f : Bool
  /-- D: 45_d.md -/
  d : Bool
  /-- the six CSR instructions, 40_rv32i.md R241 to R246 -/
  zicsr : Bool
  /-- FENCE.I, 40_rv32i.md R238 -/
  zifencei : Bool
  /-- compressed instructions, 30_encoding.md R147 -/
  c : Bool
  deriving DecidableEq, Repr

/-- Every group present: RV32GC or RV64GC (00_scope.md R2, R7 "all present"). -/
def Ext.all : Ext :=
  { m := true, a := true, f := true, d := true, zicsr := true, zifencei := true, c := true }

/-- The parameter MISALIGNED (00_scope.md R7, 20_memory.md R101). -/
inductive Misaligned where
  /-- a misaligned load or store is any partition of its bytes into operations (20_memory.md R58) -/
  | decompose
  /-- a misaligned load or store has no meaning -/
  | refuse
  deriving DecidableEq, Repr

/-- The parameters of a run (00_scope.md R7). ZAM and ZTSO are false, byte order is little-endian, FENCE_ORDERS is
20_memory.md R84 and HART_SEM the pseudocode of files 40 to 45: those have no field. ENTRY(h) stands with the hart. -/
structure Params where
  /-- XLEN -/
  xlen : Xlen
  /-- EXT -/
  ext : Ext
  /-- MISALIGNED -/
  misaligned : Misaligned
  /-- SC_MISMATCH_MAY_SUCCEED (20_memory.md R107) -/
  scMismatchMaySucceed : Bool
  /-- REGION: the ranges (first address, number of bytes) that are io; every other byte is main memory (10_state.md R32) -/
  io : List (Nat × Nat)
  /-- INIT_MEM as far as the run lists it: program text and initial data. An unlisted byte is `Config.initByte`
  (10_state.md R36, 92_eei_decisions.md D1). -/
  init : List Host.Cell
  deriving DecidableEq, Repr

/-- FREE VALUE. INIT_MEM of a byte the run does not list (92_eei_decisions.md D1: "A model must not assume zero"). -/
opaque Config.initByte : Nat → Byte

/-- FREE VALUE. The byte a load takes when no draw is listed (20_memory.md R98: "take any bytes as the returned value (a
draw)"). The argument is the count of free values taken so far. -/
opaque Config.drawnByte : Nat → Byte

/-- FREE VALUE. SC_OUTCOME when no draw is listed (20_memory.md R107). -/
opaque Config.drawnSc : Nat → Bool

/-- FREE VALUE. The partition of an access that may be decomposed when no draw is listed (20_memory.md R57, R58): bit k says
that a component ends between byte k and byte k+1. -/
opaque Config.drawnSplit : Nat → BitVec 7

end Sys2Proof
end

