-- ==== Sys2Proof/Syntax.lean ====
section
/-! DEFINITION. The instructions: one constructor for each row of spec/opcode_table.json (30_encoding.md R150). A field
keeps the name and the width the encoding gives it (R131, R133); a branch or jump offset keeps its bit 0, which the encoding
does not hold and `WellFormed` asks to be zero (R134). Reserved fields of FENCE and FENCE.I are kept too. -/

namespace Sys2Proof

/-- An instruction of the listings (source §1.3), with its fields. -/
inductive Instr where
  -- 40_rv32i.md: RV32I, FENCE.I and the CSR instructions (R200 to R246)
  /-- LUI, R200. -/
  | lui (rd : Reg) (imm : BitVec 20)
  /-- AUIPC, R201. -/
  | auipc (rd : Reg) (imm : BitVec 20)
  /-- JAL, R202. -/
  | jal (rd : Reg) (imm : BitVec 21)
  /-- JALR, R203. -/
  | jalr (rd rs1 : Reg) (imm : BitVec 12)
  /-- BEQ, R204. -/
  | beq (rs1 rs2 : Reg) (imm : BitVec 13)
  /-- BNE, R205. -/
  | bne (rs1 rs2 : Reg) (imm : BitVec 13)
  /-- BLT, R206. -/
  | blt (rs1 rs2 : Reg) (imm : BitVec 13)
  /-- BGE, R207. -/
  | bge (rs1 rs2 : Reg) (imm : BitVec 13)
  /-- BLTU, R208. -/
  | bltu (rs1 rs2 : Reg) (imm : BitVec 13)
  /-- BGEU, R209. -/
  | bgeu (rs1 rs2 : Reg) (imm : BitVec 13)
  /-- LB, R210. -/
  | lb (rd rs1 : Reg) (imm : BitVec 12)
  /-- LH, R211. -/
  | lh (rd rs1 : Reg) (imm : BitVec 12)
  /-- LW, R212. -/
  | lw (rd rs1 : Reg) (imm : BitVec 12)
  /-- LBU, R213. -/
  | lbu (rd rs1 : Reg) (imm : BitVec 12)
  /-- LHU, R214. -/
  | lhu (rd rs1 : Reg) (imm : BitVec 12)
  /-- SB, R215. -/
  | sb (rs2 rs1 : Reg) (imm : BitVec 12)
  /-- SH, R216. -/
  | sh (rs2 rs1 : Reg) (imm : BitVec 12)
  /-- SW, R217. -/
  | sw (rs2 rs1 : Reg) (imm : BitVec 12)
  /-- ADDI, R218. -/
  | addi (rd rs1 : Reg) (imm : BitVec 12)
  /-- SLTI, R219. -/
  | slti (rd rs1 : Reg) (imm : BitVec 12)
  /-- SLTIU, R220. -/
  | sltiu (rd rs1 : Reg) (imm : BitVec 12)
  /-- XORI, R221. -/
  | xori (rd rs1 : Reg) (imm : BitVec 12)
  /-- ORI, R222. -/
  | ori (rd rs1 : Reg) (imm : BitVec 12)
  /-- ANDI, R223. -/
  | andi (rd rs1 : Reg) (imm : BitVec 12)
  /-- SLLI, R224. -/
  | slli32 (rd rs1 : Reg) (shamt : BitVec 5)
  /-- SRLI, R225. -/
  | srli32 (rd rs1 : Reg) (shamt : BitVec 5)
  /-- SRAI, R226. -/
  | srai32 (rd rs1 : Reg) (shamt : BitVec 5)
  /-- ADD, R227. -/
  | add (rd rs1 rs2 : Reg)
  /-- SUB, R228. -/
  | sub (rd rs1 rs2 : Reg)
  /-- SLL, R229. -/
  | sll (rd rs1 rs2 : Reg)
  /-- SLT, R230. -/
  | slt (rd rs1 rs2 : Reg)
  /-- SLTU, R231. -/
  | sltu (rd rs1 rs2 : Reg)
  /-- XOR, R232. -/
  | xor (rd rs1 rs2 : Reg)
  /-- SRL, R233. -/
  | srl (rd rs1 rs2 : Reg)
  /-- SRA, R234. -/
  | sra (rd rs1 rs2 : Reg)
  /-- OR, R235. -/
  | or (rd rs1 rs2 : Reg)
  /-- AND, R236. -/
  | and (rd rs1 rs2 : Reg)
  /-- FENCE, R237. -/
  | fence (fm pred succ : BitVec 4) (rs1 rd : Reg)
  /-- FENCE.I, R238. -/
  | fenceI (imm : BitVec 12) (rs1 rd : Reg)
  /-- ECALL, R239. -/
  | ecall
  /-- EBREAK, R240. -/
  | ebreak
  /-- CSRRW, R241. -/
  | csrrw (rd : Reg) (csr : BitVec 12) (rs1 : Reg)
  /-- CSRRS, R242. -/
  | csrrs (rd : Reg) (csr : BitVec 12) (rs1 : Reg)
  /-- CSRRC, R243. -/
  | csrrc (rd : Reg) (csr : BitVec 12) (rs1 : Reg)
  /-- CSRRWI, R244. -/
  | csrrwi (rd : Reg) (csr : BitVec 12) (uimm : BitVec 5)
  /-- CSRRSI, R245. -/
  | csrrsi (rd : Reg) (csr : BitVec 12) (uimm : BitVec 5)
  /-- CSRRCI, R246. -/
  | csrrci (rd : Reg) (csr : BitVec 12) (uimm : BitVec 5)
  -- 41_rv64i.md: RV64I (R250 to R264)
  /-- LWU, R250. -/
  | lwu (rd rs1 : Reg) (imm : BitVec 12)
  /-- LD, R251. -/
  | ld (rd rs1 : Reg) (imm : BitVec 12)
  /-- SD, R252. -/
  | sd (rs2 rs1 : Reg) (imm : BitVec 12)
  /-- SLLI, R253. -/
  | slli (rd rs1 : Reg) (shamt : BitVec 6)
  /-- SRLI, R254. -/
  | srli (rd rs1 : Reg) (shamt : BitVec 6)
  /-- SRAI, R255. -/
  | srai (rd rs1 : Reg) (shamt : BitVec 6)
  /-- ADDIW, R256. -/
  | addiw (rd rs1 : Reg) (imm : BitVec 12)
  /-- SLLIW, R257. -/
  | slliw (rd rs1 : Reg) (shamt : BitVec 5)
  /-- SRLIW, R258. -/
  | srliw (rd rs1 : Reg) (shamt : BitVec 5)
  /-- SRAIW, R259. -/
  | sraiw (rd rs1 : Reg) (shamt : BitVec 5)
  /-- ADDW, R260. -/
  | addw (rd rs1 rs2 : Reg)
  /-- SUBW, R261. -/
  | subw (rd rs1 rs2 : Reg)
  /-- SLLW, R262. -/
  | sllw (rd rs1 rs2 : Reg)
  /-- SRLW, R263. -/
  | srlw (rd rs1 rs2 : Reg)
  /-- SRAW, R264. -/
  | sraw (rd rs1 rs2 : Reg)
  -- 42_m.md: integer multiply and divide (R270 to R282)
  /-- MUL, R270. -/
  | mul (rd rs1 rs2 : Reg)
  /-- MULH, R271. -/
  | mulh (rd rs1 rs2 : Reg)
  /-- MULHSU, R272. -/
  | mulhsu (rd rs1 rs2 : Reg)
  /-- MULHU, R273. -/
  | mulhu (rd rs1 rs2 : Reg)
  /-- DIV, R274. -/
  | div (rd rs1 rs2 : Reg)
  /-- DIVU, R275. -/
  | divu (rd rs1 rs2 : Reg)
  /-- REM, R276. -/
  | rem (rd rs1 rs2 : Reg)
  /-- REMU, R277. -/
  | remu (rd rs1 rs2 : Reg)
  /-- MULW, R278. -/
  | mulw (rd rs1 rs2 : Reg)
  /-- DIVW, R279. -/
  | divw (rd rs1 rs2 : Reg)
  /-- DIVUW, R280. -/
  | divuw (rd rs1 rs2 : Reg)
  /-- REMW, R281. -/
  | remw (rd rs1 rs2 : Reg)
  /-- REMUW, R282. -/
  | remuw (rd rs1 rs2 : Reg)
  -- 43_a.md: load-reserved, store-conditional and atomic memory operations (R290 to R311)
  /-- LR.W, R290. -/
  | lrW (rd rs1 : Reg) (aq rl : Bool)
  /-- SC.W, R291. -/
  | scW (rd rs2 rs1 : Reg) (aq rl : Bool)
  /-- AMOSWAP.W, R292. -/
  | amoswapW (rd rs2 rs1 : Reg) (aq rl : Bool)
  /-- AMOADD.W, R293. -/
  | amoaddW (rd rs2 rs1 : Reg) (aq rl : Bool)
  /-- AMOXOR.W, R294. -/
  | amoxorW (rd rs2 rs1 : Reg) (aq rl : Bool)
  /-- AMOAND.W, R295. -/
  | amoandW (rd rs2 rs1 : Reg) (aq rl : Bool)
  /-- AMOOR.W, R296. -/
  | amoorW (rd rs2 rs1 : Reg) (aq rl : Bool)
  /-- AMOMIN.W, R297. -/
  | amominW (rd rs2 rs1 : Reg) (aq rl : Bool)
  /-- AMOMAX.W, R298. -/
  | amomaxW (rd rs2 rs1 : Reg) (aq rl : Bool)
  /-- AMOMINU.W, R299. -/
  | amominuW (rd rs2 rs1 : Reg) (aq rl : Bool)
  /-- AMOMAXU.W, R300. -/
  | amomaxuW (rd rs2 rs1 : Reg) (aq rl : Bool)
  /-- LR.D, R301. -/
  | lrD (rd rs1 : Reg) (aq rl : Bool)
  /-- SC.D, R302. -/
  | scD (rd rs2 rs1 : Reg) (aq rl : Bool)
  /-- AMOSWAP.D, R303. -/
  | amoswapD (rd rs2 rs1 : Reg) (aq rl : Bool)
  /-- AMOADD.D, R304. -/
  | amoaddD (rd rs2 rs1 : Reg) (aq rl : Bool)
  /-- AMOXOR.D, R305. -/
  | amoxorD (rd rs2 rs1 : Reg) (aq rl : Bool)
  /-- AMOAND.D, R306. -/
  | amoandD (rd rs2 rs1 : Reg) (aq rl : Bool)
  /-- AMOOR.D, R307. -/
  | amoorD (rd rs2 rs1 : Reg) (aq rl : Bool)
  /-- AMOMIN.D, R308. -/
  | amominD (rd rs2 rs1 : Reg) (aq rl : Bool)
  /-- AMOMAX.D, R309. -/
  | amomaxD (rd rs2 rs1 : Reg) (aq rl : Bool)
  /-- AMOMINU.D, R310. -/
  | amominuD (rd rs2 rs1 : Reg) (aq rl : Bool)
  /-- AMOMAXU.D, R311. -/
  | amomaxuD (rd rs2 rs1 : Reg) (aq rl : Bool)
  -- 44_f.md: single precision (R320 to R349)
  /-- FLW, R320. -/
  | flw (rd rs1 : Reg) (imm : BitVec 12)
  /-- FSW, R321. -/
  | fsw (rs2 rs1 : Reg) (imm : BitVec 12)
  /-- FMADD.S, R322. -/
  | fmaddS (rd rs1 rs2 rs3 : Reg) (rm : BitVec 3)
  /-- FMSUB.S, R323. -/
  | fmsubS (rd rs1 rs2 rs3 : Reg) (rm : BitVec 3)
  /-- FNMSUB.S, R324. -/
  | fnmsubS (rd rs1 rs2 rs3 : Reg) (rm : BitVec 3)
  /-- FNMADD.S, R325. -/
  | fnmaddS (rd rs1 rs2 rs3 : Reg) (rm : BitVec 3)
  /-- FADD.S, R326. -/
  | faddS (rd rs1 rs2 : Reg) (rm : BitVec 3)
  /-- FSUB.S, R327. -/
  | fsubS (rd rs1 rs2 : Reg) (rm : BitVec 3)
  /-- FMUL.S, R328. -/
  | fmulS (rd rs1 rs2 : Reg) (rm : BitVec 3)
  /-- FDIV.S, R329. -/
  | fdivS (rd rs1 rs2 : Reg) (rm : BitVec 3)
  /-- FSQRT.S, R330. -/
  | fsqrtS (rd rs1 : Reg) (rm : BitVec 3)
  /-- FSGNJ.S, R331. -/
  | fsgnjS (rd rs1 rs2 : Reg)
  /-- FSGNJN.S, R332. -/
  | fsgnjnS (rd rs1 rs2 : Reg)
  /-- FSGNJX.S, R333. -/
  | fsgnjxS (rd rs1 rs2 : Reg)
  /-- FMIN.S, R334. -/
  | fminS (rd rs1 rs2 : Reg)
  /-- FMAX.S, R335. -/
  | fmaxS (rd rs1 rs2 : Reg)
  /-- FCVT.W.S, R336. -/
  | fcvtWS (rd rs1 : Reg) (rm : BitVec 3)
  /-- FCVT.WU.S, R337. -/
  | fcvtWUS (rd rs1 : Reg) (rm : BitVec 3)
  /-- FMV.X.W, R338. -/
  | fmvXW (rd rs1 : Reg)
  /-- FEQ.S, R339. -/
  | feqS (rd rs1 rs2 : Reg)
  /-- FLT.S, R340. -/
  | fltS (rd rs1 rs2 : Reg)
  /-- FLE.S, R341. -/
  | fleS (rd rs1 rs2 : Reg)
  /-- FCLASS.S, R342. -/
  | fclassS (rd rs1 : Reg)
  /-- FCVT.S.W, R343. -/
  | fcvtSW (rd rs1 : Reg) (rm : BitVec 3)
  /-- FCVT.S.WU, R344. -/
  | fcvtSWU (rd rs1 : Reg) (rm : BitVec 3)
  /-- FMV.W.X, R345. -/
  | fmvWX (rd rs1 : Reg)
  /-- FCVT.L.S, R346. -/
  | fcvtLS (rd rs1 : Reg) (rm : BitVec 3)
  /-- FCVT.LU.S, R347. -/
  | fcvtLUS (rd rs1 : Reg) (rm : BitVec 3)
  /-- FCVT.S.L, R348. -/
  | fcvtSL (rd rs1 : Reg) (rm : BitVec 3)
  /-- FCVT.S.LU, R349. -/
  | fcvtSLU (rd rs1 : Reg) (rm : BitVec 3)
  -- 45_d.md: double precision (R360 to R391)
  /-- FLD, R360. -/
  | fld (rd rs1 : Reg) (imm : BitVec 12)
  /-- FSD, R361. -/
  | fsd (rs2 rs1 : Reg) (imm : BitVec 12)
  /-- FMADD.D, R362. -/
  | fmaddD (rd rs1 rs2 rs3 : Reg) (rm : BitVec 3)
  /-- FMSUB.D, R363. -/
  | fmsubD (rd rs1 rs2 rs3 : Reg) (rm : BitVec 3)
  /-- FNMSUB.D, R364. -/
  | fnmsubD (rd rs1 rs2 rs3 : Reg) (rm : BitVec 3)
  /-- FNMADD.D, R365. -/
  | fnmaddD (rd rs1 rs2 rs3 : Reg) (rm : BitVec 3)
  /-- FADD.D, R366. -/
  | faddD (rd rs1 rs2 : Reg) (rm : BitVec 3)
  /-- FSUB.D, R367. -/
  | fsubD (rd rs1 rs2 : Reg) (rm : BitVec 3)
  /-- FMUL.D, R368. -/
  | fmulD (rd rs1 rs2 : Reg) (rm : BitVec 3)
  /-- FDIV.D, R369. -/
  | fdivD (rd rs1 rs2 : Reg) (rm : BitVec 3)
  /-- FSQRT.D, R370. -/
  | fsqrtD (rd rs1 : Reg) (rm : BitVec 3)
  /-- FSGNJ.D, R371. -/
  | fsgnjD (rd rs1 rs2 : Reg)
  /-- FSGNJN.D, R372. -/
  | fsgnjnD (rd rs1 rs2 : Reg)
  /-- FSGNJX.D, R373. -/
  | fsgnjxD (rd rs1 rs2 : Reg)
  /-- FMIN.D, R374. -/
  | fminD (rd rs1 rs2 : Reg)
  /-- FMAX.D, R375. -/
  | fmaxD (rd rs1 rs2 : Reg)
  /-- FCVT.S.D, R376. -/
  | fcvtSD (rd rs1 : Reg) (rm : BitVec 3)
  /-- FCVT.D.S, R377. -/
  | fcvtDS (rd rs1 : Reg) (rm : BitVec 3)
  /-- FEQ.D, R378. -/
  | feqD (rd rs1 rs2 : Reg)
  /-- FLT.D, R379. -/
  | fltD (rd rs1 rs2 : Reg)
  /-- FLE.D, R380. -/
  | fleD (rd rs1 rs2 : Reg)
  /-- FCLASS.D, R381. -/
  | fclassD (rd rs1 : Reg)
  /-- FCVT.W.D, R382. -/
  | fcvtWD (rd rs1 : Reg) (rm : BitVec 3)
  /-- FCVT.WU.D, R383. -/
  | fcvtWUD (rd rs1 : Reg) (rm : BitVec 3)
  /-- FCVT.D.W, R384. -/
  | fcvtDW (rd rs1 : Reg) (rm : BitVec 3)
  /-- FCVT.D.WU, R385. -/
  | fcvtDWU (rd rs1 : Reg) (rm : BitVec 3)
  /-- FCVT.L.D, R386. -/
  | fcvtLD (rd rs1 : Reg) (rm : BitVec 3)
  /-- FCVT.LU.D, R387. -/
  | fcvtLUD (rd rs1 : Reg) (rm : BitVec 3)
  /-- FMV.X.D, R388. -/
  | fmvXD (rd rs1 : Reg)
  /-- FCVT.D.L, R389. -/
  | fcvtDL (rd rs1 : Reg) (rm : BitVec 3)
  /-- FCVT.D.LU, R390. -/
  | fcvtDLU (rd rs1 : Reg) (rm : BitVec 3)
  /-- FMV.D.X, R391. -/
  | fmvDX (rd rs1 : Reg)
  deriving DecidableEq, Repr

end Sys2Proof
end

