-- ==== Sys2Proof/Machine/Columns.lean ====
section
/-! DEFINITION. Two columns of spec/opcode_table.json (30_encoding.md R150): for which XLEN and for which listing group each
row exists (R140). -/

namespace Sys2Proof.Machine

/-- The listing group of a row: the column `ext`. -/
inductive Group where
  /-- the base integer listings, always present -/
  | i
  /-- M -/
  | m
  /-- A -/
  | a
  /-- F -/
  | f
  /-- D -/
  | d
  /-- the CSR instructions -/
  | zicsr
  /-- FENCE.I -/
  | zifencei
  deriving DecidableEq, Repr

/-- The column `ext`. -/
def groupOf (i : Instr) : Group :=
  match i with
  | .lui _ _ | .auipc _ _ | .jal _ _ | .jalr _ _ _ | .beq _ _ _ | .bne _ _ _ | .blt _ _ _ | .bge _ _ _ | .bltu _ _ _
  | .bgeu _ _ _ | .lb _ _ _ | .lh _ _ _ | .lw _ _ _ | .lbu _ _ _ | .lhu _ _ _ | .sb _ _ _ | .sh _ _ _ | .sw _ _ _
  | .addi _ _ _ | .slti _ _ _ | .sltiu _ _ _ | .xori _ _ _ | .ori _ _ _ | .andi _ _ _ | .slli32 _ _ _ | .srli32 _ _ _
  | .srai32 _ _ _ | .add _ _ _ | .sub _ _ _ | .sll _ _ _ | .slt _ _ _ | .sltu _ _ _ | .xor _ _ _ | .srl _ _ _
  | .sra _ _ _ | .or _ _ _ | .and _ _ _ | .fence _ _ _ _ _ | .ecall | .ebreak | .lwu _ _ _ | .ld _ _ _ | .sd _ _ _
  | .slli _ _ _ | .srli _ _ _ | .srai _ _ _ | .addiw _ _ _ | .slliw _ _ _ | .srliw _ _ _ | .sraiw _ _ _ | .addw _ _ _
  | .subw _ _ _ | .sllw _ _ _ | .srlw _ _ _ | .sraw _ _ _ => .i
  | .fenceI _ _ _ => .zifencei
  | .csrrw _ _ _ | .csrrs _ _ _ | .csrrc _ _ _ | .csrrwi _ _ _ | .csrrsi _ _ _ | .csrrci _ _ _ => .zicsr
  | .mul _ _ _ | .mulh _ _ _ | .mulhsu _ _ _ | .mulhu _ _ _ | .div _ _ _ | .divu _ _ _ | .rem _ _ _ | .remu _ _ _
  | .mulw _ _ _ | .divw _ _ _ | .divuw _ _ _ | .remw _ _ _ | .remuw _ _ _ => .m
  | .lrW _ _ _ _ | .scW _ _ _ _ _ | .amoswapW _ _ _ _ _ | .amoaddW _ _ _ _ _ | .amoxorW _ _ _ _ _
  | .amoandW _ _ _ _ _ | .amoorW _ _ _ _ _ | .amominW _ _ _ _ _ | .amomaxW _ _ _ _ _ | .amominuW _ _ _ _ _
  | .amomaxuW _ _ _ _ _ | .lrD _ _ _ _ | .scD _ _ _ _ _ | .amoswapD _ _ _ _ _ | .amoaddD _ _ _ _ _
  | .amoxorD _ _ _ _ _ | .amoandD _ _ _ _ _ | .amoorD _ _ _ _ _ | .amominD _ _ _ _ _ | .amomaxD _ _ _ _ _
  | .amominuD _ _ _ _ _ | .amomaxuD _ _ _ _ _ => .a
  | .flw _ _ _ | .fsw _ _ _ | .fmaddS _ _ _ _ _ | .fmsubS _ _ _ _ _ | .fnmsubS _ _ _ _ _ | .fnmaddS _ _ _ _ _
  | .faddS _ _ _ _ | .fsubS _ _ _ _ | .fmulS _ _ _ _ | .fdivS _ _ _ _ | .fsqrtS _ _ _ | .fsgnjS _ _ _
  | .fsgnjnS _ _ _ | .fsgnjxS _ _ _ | .fminS _ _ _ | .fmaxS _ _ _ | .fcvtWS _ _ _ | .fcvtWUS _ _ _ | .fmvXW _ _
  | .feqS _ _ _ | .fltS _ _ _ | .fleS _ _ _ | .fclassS _ _ | .fcvtSW _ _ _ | .fcvtSWU _ _ _ | .fmvWX _ _
  | .fcvtLS _ _ _ | .fcvtLUS _ _ _ | .fcvtSL _ _ _ | .fcvtSLU _ _ _ => .f
  | .fld _ _ _ | .fsd _ _ _ | .fmaddD _ _ _ _ _ | .fmsubD _ _ _ _ _ | .fnmsubD _ _ _ _ _ | .fnmaddD _ _ _ _ _
  | .faddD _ _ _ _ | .fsubD _ _ _ _ | .fmulD _ _ _ _ | .fdivD _ _ _ _ | .fsqrtD _ _ _ | .fsgnjD _ _ _
  | .fsgnjnD _ _ _ | .fsgnjxD _ _ _ | .fminD _ _ _ | .fmaxD _ _ _ | .fcvtSD _ _ _ | .fcvtDS _ _ _ | .feqD _ _ _
  | .fltD _ _ _ | .fleD _ _ _ | .fclassD _ _ | .fcvtWD _ _ _ | .fcvtWUD _ _ _ | .fcvtDW _ _ _ | .fcvtDWU _ _ _
  | .fcvtLD _ _ _ | .fcvtLUD _ _ _ | .fmvXD _ _ | .fcvtDL _ _ _ | .fcvtDLU _ _ _ | .fmvDX _ _ => .d

/-- A group is present (00_scope.md R7). -/
def groupPresent (e : Ext) (g : Group) : Bool :=
  match g with
  | .i => true
  | .m => e.m
  | .a => e.a
  | .f => e.f
  | .d => e.d
  | .zicsr => e.zicsr
  | .zifencei => e.zifencei

/-- The column `xlen`: the row exists for this XLEN. -/
def existsFor (x : Xlen) (i : Instr) : Bool :=
  match i with
  | .lui _ _ | .auipc _ _ | .jal _ _ | .jalr _ _ _ | .beq _ _ _ | .bne _ _ _ | .blt _ _ _ | .bge _ _ _ | .bltu _ _ _
  | .bgeu _ _ _ | .lb _ _ _ | .lh _ _ _ | .lw _ _ _ | .lbu _ _ _ | .lhu _ _ _ | .sb _ _ _ | .sh _ _ _ | .sw _ _ _
  | .addi _ _ _ | .slti _ _ _ | .sltiu _ _ _ | .xori _ _ _ | .ori _ _ _ | .andi _ _ _ | .add _ _ _ | .sub _ _ _
  | .sll _ _ _ | .slt _ _ _ | .sltu _ _ _ | .xor _ _ _ | .srl _ _ _ | .sra _ _ _ | .or _ _ _ | .and _ _ _
  | .fence _ _ _ _ _ | .fenceI _ _ _ | .ecall | .ebreak | .csrrw _ _ _ | .csrrs _ _ _ | .csrrc _ _ _ | .csrrwi _ _ _
  | .csrrsi _ _ _ | .csrrci _ _ _ | .mul _ _ _ | .mulh _ _ _ | .mulhsu _ _ _ | .mulhu _ _ _ | .div _ _ _
  | .divu _ _ _ | .rem _ _ _ | .remu _ _ _ | .lrW _ _ _ _ | .scW _ _ _ _ _ | .amoswapW _ _ _ _ _ | .amoaddW _ _ _ _ _
  | .amoxorW _ _ _ _ _ | .amoandW _ _ _ _ _ | .amoorW _ _ _ _ _ | .amominW _ _ _ _ _ | .amomaxW _ _ _ _ _
  | .amominuW _ _ _ _ _ | .amomaxuW _ _ _ _ _ | .flw _ _ _ | .fsw _ _ _ | .fmaddS _ _ _ _ _ | .fmsubS _ _ _ _ _
  | .fnmsubS _ _ _ _ _ | .fnmaddS _ _ _ _ _ | .faddS _ _ _ _ | .fsubS _ _ _ _ | .fmulS _ _ _ _ | .fdivS _ _ _ _
  | .fsqrtS _ _ _ | .fsgnjS _ _ _ | .fsgnjnS _ _ _ | .fsgnjxS _ _ _ | .fminS _ _ _ | .fmaxS _ _ _ | .fcvtWS _ _ _
  | .fcvtWUS _ _ _ | .fmvXW _ _ | .feqS _ _ _ | .fltS _ _ _ | .fleS _ _ _ | .fclassS _ _ | .fcvtSW _ _ _
  | .fcvtSWU _ _ _ | .fmvWX _ _ | .fld _ _ _ | .fsd _ _ _ | .fmaddD _ _ _ _ _ | .fmsubD _ _ _ _ _
  | .fnmsubD _ _ _ _ _ | .fnmaddD _ _ _ _ _ | .faddD _ _ _ _ | .fsubD _ _ _ _ | .fmulD _ _ _ _ | .fdivD _ _ _ _
  | .fsqrtD _ _ _ | .fsgnjD _ _ _ | .fsgnjnD _ _ _ | .fsgnjxD _ _ _ | .fminD _ _ _ | .fmaxD _ _ _ | .fcvtSD _ _ _
  | .fcvtDS _ _ _ | .feqD _ _ _ | .fltD _ _ _ | .fleD _ _ _ | .fclassD _ _ | .fcvtWD _ _ _ | .fcvtWUD _ _ _
  | .fcvtDW _ _ _ | .fcvtDWU _ _ _ => true
  | .slli32 _ _ _ | .srli32 _ _ _ | .srai32 _ _ _ => decide (x = .rv32)
  | .lwu _ _ _ | .ld _ _ _ | .sd _ _ _ | .slli _ _ _ | .srli _ _ _ | .srai _ _ _ | .addiw _ _ _ | .slliw _ _ _
  | .srliw _ _ _ | .sraiw _ _ _ | .addw _ _ _ | .subw _ _ _ | .sllw _ _ _ | .srlw _ _ _ | .sraw _ _ _ | .mulw _ _ _
  | .divw _ _ _ | .divuw _ _ _ | .remw _ _ _ | .remuw _ _ _ | .lrD _ _ _ _ | .scD _ _ _ _ _ | .amoswapD _ _ _ _ _
  | .amoaddD _ _ _ _ _ | .amoxorD _ _ _ _ _ | .amoandD _ _ _ _ _ | .amoorD _ _ _ _ _ | .amominD _ _ _ _ _
  | .amomaxD _ _ _ _ _ | .amominuD _ _ _ _ _ | .amomaxuD _ _ _ _ _ | .fcvtLS _ _ _ | .fcvtLUS _ _ _ | .fcvtSL _ _ _
  | .fcvtSLU _ _ _ | .fcvtLD _ _ _ | .fcvtLUD _ _ _ | .fmvXD _ _ | .fcvtDL _ _ _ | .fcvtDLU _ _ _ | .fmvDX _ _ => decide (x = .rv64)

/-- The row is valid for the hart's XLEN and EXT (30_encoding.md R146). -/
def validFor (x : Xlen) (e : Ext) (i : Instr) : Bool := existsFor x i && groupPresent e (groupOf i)

end Sys2Proof.Machine
end

