-- ==== Sys2Proof/Decode.lean ====
section
/-! DEFINITION. The decoder, total on any bytes, and the encoder, from the formats and tables of 30_encoding.md R133 to
R140. -/

namespace Sys2Proof

/-- Why bytes are no instruction (30_encoding.md R146, R147). -/
inductive DecodeError where
  /-- fewer than four bytes of a 32-bit instruction, or fewer than two bytes -/
  | truncated
  /-- bits 1:0 are not 11: a 16-bit instruction -/
  | compressed
  /-- no row of the table has this word -/
  | noRow
  /-- a row has this word, but not for this XLEN and EXT -/
  | notPresent
  deriving DecidableEq, Repr

/-- The six fields every 32-bit format is made of (30_encoding.md R133): bits 31:25, 24:20, 19:15, 14:12, 11:7, 6:0. -/
structure Fields where
  /-- bits 31:25 -/
  f7 : BitVec 7
  /-- bits 24:20 -/
  rs2 : BitVec 5
  /-- bits 19:15 -/
  rs1 : BitVec 5
  /-- bits 14:12 -/
  f3 : BitVec 3
  /-- bits 11:7 -/
  rd : BitVec 5
  /-- bits 6:0 -/
  op : BitVec 7
  deriving DecidableEq, Repr

/-- The fields of a word. -/
def splitWord (w : BitVec 32) : Fields :=
  { f7 := w.extractLsb' 25 7, rs2 := w.extractLsb' 20 5, rs1 := w.extractLsb' 15 5, f3 := w.extractLsb' 12 3,
    rd := w.extractLsb' 7 5, op := w.extractLsb' 0 7 }

/-- The word of some fields. -/
def joinWord (f : Fields) : BitVec 32 := f.f7 ++ f.rs2 ++ f.rs1 ++ f.f3 ++ f.rd ++ f.op

/-! ### Immediates (30_encoding.md R134) and packed fields -/

/-- I: bits 31:20. -/
def Fields.immI (f : Fields) : BitVec 12 := f.f7 ++ f.rs2
/-- S: bits 31:25, 11:7. -/
def Fields.immS (f : Fields) : BitVec 12 := f.f7 ++ f.rd
/-- B: bit 31, bit 7, bits 30:25, bits 11:8, 0. -/
def Fields.immB (f : Fields) : BitVec 13 :=
  f.f7.extractLsb' 6 1 ++ f.rd.extractLsb' 0 1 ++ f.f7.extractLsb' 0 6 ++ f.rd.extractLsb' 1 4 ++ (0 : BitVec 1)
/-- U: bits 31:12. -/
def Fields.immU (f : Fields) : BitVec 20 := f.f7 ++ f.rs2 ++ f.rs1 ++ f.f3
/-- J: bit 31, bits 19:12, bit 20, bits 30:21, 0. -/
def Fields.immJ (f : Fields) : BitVec 21 :=
  f.f7.extractLsb' 6 1 ++ f.rs1 ++ f.f3 ++ f.rs2.extractLsb' 0 1 ++ f.f7.extractLsb' 0 6 ++ f.rs2.extractLsb' 1 4 ++
    (0 : BitVec 1)
/-- The 6-bit shift amount: bits 25:20. -/
def Fields.shamt6 (f : Fields) : BitVec 6 := f.f7.extractLsb' 0 1 ++ f.rs2
/-- Bits 31:26 beside a 6-bit shift amount. -/
def Fields.f6 (f : Fields) : BitVec 6 := f.f7.extractLsb' 1 6
/-- funct5 of an AMO, rs3 of an R4: bits 31:27. -/
def Fields.f5 (f : Fields) : BitVec 5 := f.f7.extractLsb' 2 5
/-- fmt of an R4: bits 26:25. -/
def Fields.fmt (f : Fields) : BitVec 2 := f.f7.extractLsb' 0 2
/-- aq: bit 26. -/
def Fields.aq (f : Fields) : Bool := f.f7.getLsbD 1
/-- rl: bit 25. -/
def Fields.rl (f : Fields) : Bool := f.f7.getLsbD 0
/-- fm of FENCE: bits 31:28. -/
def Fields.fm (f : Fields) : BitVec 4 := f.f7.extractLsb' 3 4
/-- pred of FENCE: bits 27:24. -/
def Fields.pred (f : Fields) : BitVec 4 := f.f7.extractLsb' 0 3 ++ f.rs2.extractLsb' 4 1
/-- succ of FENCE: bits 23:20. -/
def Fields.succ (f : Fields) : BitVec 4 := f.rs2.extractLsb' 0 4

/-! ### Rows by major opcode (30_encoding.md R135 to R138) -/

/-- The rows of major opcode 0110111. -/
def rowLui (f : Fields) : Option Instr :=
  some (.lui f.rd f.immU)

/-- The rows of major opcode 0010111. -/
def rowAuipc (f : Fields) : Option Instr :=
  some (.auipc f.rd f.immU)

/-- The rows of major opcode 1101111. -/
def rowJal (f : Fields) : Option Instr :=
  some (.jal f.rd f.immJ)

/-- The rows of major opcode 1100111. -/
def rowJalr (f : Fields) : Option Instr :=
  if f.f3 = 0b000 then some (.jalr f.rd f.rs1 f.immI)
  else none

/-- The rows of major opcode 1100011. -/
def rowBranch (f : Fields) : Option Instr :=
  if f.f3 = 0b000 then some (.beq f.rs1 f.rs2 f.immB)
  else if f.f3 = 0b001 then some (.bne f.rs1 f.rs2 f.immB)
  else if f.f3 = 0b100 then some (.blt f.rs1 f.rs2 f.immB)
  else if f.f3 = 0b101 then some (.bge f.rs1 f.rs2 f.immB)
  else if f.f3 = 0b110 then some (.bltu f.rs1 f.rs2 f.immB)
  else if f.f3 = 0b111 then some (.bgeu f.rs1 f.rs2 f.immB)
  else none

/-- The rows of major opcode 0000011. -/
def rowLoad (f : Fields) : Option Instr :=
  if f.f3 = 0b000 then some (.lb f.rd f.rs1 f.immI)
  else if f.f3 = 0b001 then some (.lh f.rd f.rs1 f.immI)
  else if f.f3 = 0b010 then some (.lw f.rd f.rs1 f.immI)
  else if f.f3 = 0b100 then some (.lbu f.rd f.rs1 f.immI)
  else if f.f3 = 0b101 then some (.lhu f.rd f.rs1 f.immI)
  else if f.f3 = 0b110 then some (.lwu f.rd f.rs1 f.immI)
  else if f.f3 = 0b011 then some (.ld f.rd f.rs1 f.immI)
  else none

/-- The rows of major opcode 0100011. -/
def rowStore (f : Fields) : Option Instr :=
  if f.f3 = 0b000 then some (.sb f.rs2 f.rs1 f.immS)
  else if f.f3 = 0b001 then some (.sh f.rs2 f.rs1 f.immS)
  else if f.f3 = 0b010 then some (.sw f.rs2 f.rs1 f.immS)
  else if f.f3 = 0b011 then some (.sd f.rs2 f.rs1 f.immS)
  else none

/-- The rows of major opcode 0010011. -/
def rowOpImm (x : Xlen) (f : Fields) : Option Instr :=
  if f.f3 = 0b000 then some (.addi f.rd f.rs1 f.immI)
  else if f.f3 = 0b010 then some (.slti f.rd f.rs1 f.immI)
  else if f.f3 = 0b011 then some (.sltiu f.rd f.rs1 f.immI)
  else if f.f3 = 0b100 then some (.xori f.rd f.rs1 f.immI)
  else if f.f3 = 0b110 then some (.ori f.rd f.rs1 f.immI)
  else if f.f3 = 0b111 then some (.andi f.rd f.rs1 f.immI)
  else if x = .rv32 ∧ f.f3 = 0b001 ∧ f.f7 = 0b0000000 then some (.slli32 f.rd f.rs1 f.rs2)
  else if x = .rv32 ∧ f.f3 = 0b101 ∧ f.f7 = 0b0000000 then some (.srli32 f.rd f.rs1 f.rs2)
  else if x = .rv32 ∧ f.f3 = 0b101 ∧ f.f7 = 0b0100000 then some (.srai32 f.rd f.rs1 f.rs2)
  else if x = .rv64 ∧ f.f3 = 0b001 ∧ f.f6 = 0b000000 then some (.slli f.rd f.rs1 f.shamt6)
  else if x = .rv64 ∧ f.f3 = 0b101 ∧ f.f6 = 0b000000 then some (.srli f.rd f.rs1 f.shamt6)
  else if x = .rv64 ∧ f.f3 = 0b101 ∧ f.f6 = 0b010000 then some (.srai f.rd f.rs1 f.shamt6)
  else none

/-- The rows of major opcode 0110011. -/
def rowOp (f : Fields) : Option Instr :=
  if f.f3 = 0b000 ∧ f.f7 = 0b0000000 then some (.add f.rd f.rs1 f.rs2)
  else if f.f3 = 0b000 ∧ f.f7 = 0b0100000 then some (.sub f.rd f.rs1 f.rs2)
  else if f.f3 = 0b001 ∧ f.f7 = 0b0000000 then some (.sll f.rd f.rs1 f.rs2)
  else if f.f3 = 0b010 ∧ f.f7 = 0b0000000 then some (.slt f.rd f.rs1 f.rs2)
  else if f.f3 = 0b011 ∧ f.f7 = 0b0000000 then some (.sltu f.rd f.rs1 f.rs2)
  else if f.f3 = 0b100 ∧ f.f7 = 0b0000000 then some (.xor f.rd f.rs1 f.rs2)
  else if f.f3 = 0b101 ∧ f.f7 = 0b0000000 then some (.srl f.rd f.rs1 f.rs2)
  else if f.f3 = 0b101 ∧ f.f7 = 0b0100000 then some (.sra f.rd f.rs1 f.rs2)
  else if f.f3 = 0b110 ∧ f.f7 = 0b0000000 then some (.or f.rd f.rs1 f.rs2)
  else if f.f3 = 0b111 ∧ f.f7 = 0b0000000 then some (.and f.rd f.rs1 f.rs2)
  else if f.f3 = 0b000 ∧ f.f7 = 0b0000001 then some (.mul f.rd f.rs1 f.rs2)
  else if f.f3 = 0b001 ∧ f.f7 = 0b0000001 then some (.mulh f.rd f.rs1 f.rs2)
  else if f.f3 = 0b010 ∧ f.f7 = 0b0000001 then some (.mulhsu f.rd f.rs1 f.rs2)
  else if f.f3 = 0b011 ∧ f.f7 = 0b0000001 then some (.mulhu f.rd f.rs1 f.rs2)
  else if f.f3 = 0b100 ∧ f.f7 = 0b0000001 then some (.div f.rd f.rs1 f.rs2)
  else if f.f3 = 0b101 ∧ f.f7 = 0b0000001 then some (.divu f.rd f.rs1 f.rs2)
  else if f.f3 = 0b110 ∧ f.f7 = 0b0000001 then some (.rem f.rd f.rs1 f.rs2)
  else if f.f3 = 0b111 ∧ f.f7 = 0b0000001 then some (.remu f.rd f.rs1 f.rs2)
  else none

/-- The rows of major opcode 0001111. DESIGN CHOICE (log 27): a FENCE.I is one whatever its reserved fields hold. -/
def rowMiscMem (f : Fields) : Option Instr :=
  if f.f3 = 0b000 then some (.fence f.fm f.pred f.succ f.rs1 f.rd)
  else if f.f3 = 0b001 then some (.fenceI f.immI f.rs1 f.rd)
  else none

/-- The rows of major opcode 1110011. -/
def rowSystem (f : Fields) : Option Instr :=
  if f.f3 = 0b000 ∧ f.f7 = 0b0000000 ∧ f.rs2 = 0b00000 ∧ f.rs1 = 0b00000 ∧ f.rd = 0b00000 then some .ecall
  else if f.f3 = 0b000 ∧ f.f7 = 0b0000000 ∧ f.rs2 = 0b00001 ∧ f.rs1 = 0b00000 ∧ f.rd = 0b00000 then some .ebreak
  else if f.f3 = 0b001 then some (.csrrw f.rd f.immI f.rs1)
  else if f.f3 = 0b010 then some (.csrrs f.rd f.immI f.rs1)
  else if f.f3 = 0b011 then some (.csrrc f.rd f.immI f.rs1)
  else if f.f3 = 0b101 then some (.csrrwi f.rd f.immI f.rs1)
  else if f.f3 = 0b110 then some (.csrrsi f.rd f.immI f.rs1)
  else if f.f3 = 0b111 then some (.csrrci f.rd f.immI f.rs1)
  else none

/-- The rows of major opcode 0011011. -/
def rowOpImm32 (f : Fields) : Option Instr :=
  if f.f3 = 0b000 then some (.addiw f.rd f.rs1 f.immI)
  else if f.f3 = 0b001 ∧ f.f7 = 0b0000000 then some (.slliw f.rd f.rs1 f.rs2)
  else if f.f3 = 0b101 ∧ f.f7 = 0b0000000 then some (.srliw f.rd f.rs1 f.rs2)
  else if f.f3 = 0b101 ∧ f.f7 = 0b0100000 then some (.sraiw f.rd f.rs1 f.rs2)
  else none

/-- The rows of major opcode 0111011. -/
def rowOp32 (f : Fields) : Option Instr :=
  if f.f3 = 0b000 ∧ f.f7 = 0b0000000 then some (.addw f.rd f.rs1 f.rs2)
  else if f.f3 = 0b000 ∧ f.f7 = 0b0100000 then some (.subw f.rd f.rs1 f.rs2)
  else if f.f3 = 0b001 ∧ f.f7 = 0b0000000 then some (.sllw f.rd f.rs1 f.rs2)
  else if f.f3 = 0b101 ∧ f.f7 = 0b0000000 then some (.srlw f.rd f.rs1 f.rs2)
  else if f.f3 = 0b101 ∧ f.f7 = 0b0100000 then some (.sraw f.rd f.rs1 f.rs2)
  else if f.f3 = 0b000 ∧ f.f7 = 0b0000001 then some (.mulw f.rd f.rs1 f.rs2)
  else if f.f3 = 0b100 ∧ f.f7 = 0b0000001 then some (.divw f.rd f.rs1 f.rs2)
  else if f.f3 = 0b101 ∧ f.f7 = 0b0000001 then some (.divuw f.rd f.rs1 f.rs2)
  else if f.f3 = 0b110 ∧ f.f7 = 0b0000001 then some (.remw f.rd f.rs1 f.rs2)
  else if f.f3 = 0b111 ∧ f.f7 = 0b0000001 then some (.remuw f.rd f.rs1 f.rs2)
  else none

/-- The rows of major opcode 0101111. -/
def rowAmo (f : Fields) : Option Instr :=
  if f.f3 = 0b010 ∧ f.f5 = 0b00010 ∧ f.rs2 = 0b00000 then some (.lrW f.rd f.rs1 f.aq f.rl)
  else if f.f3 = 0b010 ∧ f.f5 = 0b00011 then some (.scW f.rd f.rs2 f.rs1 f.aq f.rl)
  else if f.f3 = 0b010 ∧ f.f5 = 0b00001 then some (.amoswapW f.rd f.rs2 f.rs1 f.aq f.rl)
  else if f.f3 = 0b010 ∧ f.f5 = 0b00000 then some (.amoaddW f.rd f.rs2 f.rs1 f.aq f.rl)
  else if f.f3 = 0b010 ∧ f.f5 = 0b00100 then some (.amoxorW f.rd f.rs2 f.rs1 f.aq f.rl)
  else if f.f3 = 0b010 ∧ f.f5 = 0b01100 then some (.amoandW f.rd f.rs2 f.rs1 f.aq f.rl)
  else if f.f3 = 0b010 ∧ f.f5 = 0b01000 then some (.amoorW f.rd f.rs2 f.rs1 f.aq f.rl)
  else if f.f3 = 0b010 ∧ f.f5 = 0b10000 then some (.amominW f.rd f.rs2 f.rs1 f.aq f.rl)
  else if f.f3 = 0b010 ∧ f.f5 = 0b10100 then some (.amomaxW f.rd f.rs2 f.rs1 f.aq f.rl)
  else if f.f3 = 0b010 ∧ f.f5 = 0b11000 then some (.amominuW f.rd f.rs2 f.rs1 f.aq f.rl)
  else if f.f3 = 0b010 ∧ f.f5 = 0b11100 then some (.amomaxuW f.rd f.rs2 f.rs1 f.aq f.rl)
  else if f.f3 = 0b011 ∧ f.f5 = 0b00010 ∧ f.rs2 = 0b00000 then some (.lrD f.rd f.rs1 f.aq f.rl)
  else if f.f3 = 0b011 ∧ f.f5 = 0b00011 then some (.scD f.rd f.rs2 f.rs1 f.aq f.rl)
  else if f.f3 = 0b011 ∧ f.f5 = 0b00001 then some (.amoswapD f.rd f.rs2 f.rs1 f.aq f.rl)
  else if f.f3 = 0b011 ∧ f.f5 = 0b00000 then some (.amoaddD f.rd f.rs2 f.rs1 f.aq f.rl)
  else if f.f3 = 0b011 ∧ f.f5 = 0b00100 then some (.amoxorD f.rd f.rs2 f.rs1 f.aq f.rl)
  else if f.f3 = 0b011 ∧ f.f5 = 0b01100 then some (.amoandD f.rd f.rs2 f.rs1 f.aq f.rl)
  else if f.f3 = 0b011 ∧ f.f5 = 0b01000 then some (.amoorD f.rd f.rs2 f.rs1 f.aq f.rl)
  else if f.f3 = 0b011 ∧ f.f5 = 0b10000 then some (.amominD f.rd f.rs2 f.rs1 f.aq f.rl)
  else if f.f3 = 0b011 ∧ f.f5 = 0b10100 then some (.amomaxD f.rd f.rs2 f.rs1 f.aq f.rl)
  else if f.f3 = 0b011 ∧ f.f5 = 0b11000 then some (.amominuD f.rd f.rs2 f.rs1 f.aq f.rl)
  else if f.f3 = 0b011 ∧ f.f5 = 0b11100 then some (.amomaxuD f.rd f.rs2 f.rs1 f.aq f.rl)
  else none

/-- The rows of major opcode 0000111. -/
def rowLoadFp (f : Fields) : Option Instr :=
  if f.f3 = 0b010 then some (.flw f.rd f.rs1 f.immI)
  else if f.f3 = 0b011 then some (.fld f.rd f.rs1 f.immI)
  else none

/-- The rows of major opcode 0100111. -/
def rowStoreFp (f : Fields) : Option Instr :=
  if f.f3 = 0b010 then some (.fsw f.rs2 f.rs1 f.immS)
  else if f.f3 = 0b011 then some (.fsd f.rs2 f.rs1 f.immS)
  else none

/-- The rows of major opcode 1000011. -/
def rowMadd (f : Fields) : Option Instr :=
  if f.fmt = 0b00 then some (.fmaddS f.rd f.rs1 f.rs2 f.f5 f.f3)
  else if f.fmt = 0b01 then some (.fmaddD f.rd f.rs1 f.rs2 f.f5 f.f3)
  else none

/-- The rows of major opcode 1000111. -/
def rowMsub (f : Fields) : Option Instr :=
  if f.fmt = 0b00 then some (.fmsubS f.rd f.rs1 f.rs2 f.f5 f.f3)
  else if f.fmt = 0b01 then some (.fmsubD f.rd f.rs1 f.rs2 f.f5 f.f3)
  else none

/-- The rows of major opcode 1001011. -/
def rowNmsub (f : Fields) : Option Instr :=
  if f.fmt = 0b00 then some (.fnmsubS f.rd f.rs1 f.rs2 f.f5 f.f3)
  else if f.fmt = 0b01 then some (.fnmsubD f.rd f.rs1 f.rs2 f.f5 f.f3)
  else none

/-- The rows of major opcode 1001111. -/
def rowNmadd (f : Fields) : Option Instr :=
  if f.fmt = 0b00 then some (.fnmaddS f.rd f.rs1 f.rs2 f.f5 f.f3)
  else if f.fmt = 0b01 then some (.fnmaddD f.rd f.rs1 f.rs2 f.f5 f.f3)
  else none

/-- The rows of major opcode 1010011. -/
def rowOpFp (f : Fields) : Option Instr :=
  if f.f7 = 0b0000000 then some (.faddS f.rd f.rs1 f.rs2 f.f3)
  else if f.f7 = 0b0000100 then some (.fsubS f.rd f.rs1 f.rs2 f.f3)
  else if f.f7 = 0b0001000 then some (.fmulS f.rd f.rs1 f.rs2 f.f3)
  else if f.f7 = 0b0001100 then some (.fdivS f.rd f.rs1 f.rs2 f.f3)
  else if f.f7 = 0b0101100 ∧ f.rs2 = 0b00000 then some (.fsqrtS f.rd f.rs1 f.f3)
  else if f.f3 = 0b000 ∧ f.f7 = 0b0010000 then some (.fsgnjS f.rd f.rs1 f.rs2)
  else if f.f3 = 0b001 ∧ f.f7 = 0b0010000 then some (.fsgnjnS f.rd f.rs1 f.rs2)
  else if f.f3 = 0b010 ∧ f.f7 = 0b0010000 then some (.fsgnjxS f.rd f.rs1 f.rs2)
  else if f.f3 = 0b000 ∧ f.f7 = 0b0010100 then some (.fminS f.rd f.rs1 f.rs2)
  else if f.f3 = 0b001 ∧ f.f7 = 0b0010100 then some (.fmaxS f.rd f.rs1 f.rs2)
  else if f.f7 = 0b1100000 ∧ f.rs2 = 0b00000 then some (.fcvtWS f.rd f.rs1 f.f3)
  else if f.f7 = 0b1100000 ∧ f.rs2 = 0b00001 then some (.fcvtWUS f.rd f.rs1 f.f3)
  else if f.f3 = 0b000 ∧ f.f7 = 0b1110000 ∧ f.rs2 = 0b00000 then some (.fmvXW f.rd f.rs1)
  else if f.f3 = 0b010 ∧ f.f7 = 0b1010000 then some (.feqS f.rd f.rs1 f.rs2)
  else if f.f3 = 0b001 ∧ f.f7 = 0b1010000 then some (.fltS f.rd f.rs1 f.rs2)
  else if f.f3 = 0b000 ∧ f.f7 = 0b1010000 then some (.fleS f.rd f.rs1 f.rs2)
  else if f.f3 = 0b001 ∧ f.f7 = 0b1110000 ∧ f.rs2 = 0b00000 then some (.fclassS f.rd f.rs1)
  else if f.f7 = 0b1101000 ∧ f.rs2 = 0b00000 then some (.fcvtSW f.rd f.rs1 f.f3)
  else if f.f7 = 0b1101000 ∧ f.rs2 = 0b00001 then some (.fcvtSWU f.rd f.rs1 f.f3)
  else if f.f3 = 0b000 ∧ f.f7 = 0b1111000 ∧ f.rs2 = 0b00000 then some (.fmvWX f.rd f.rs1)
  else if f.f7 = 0b1100000 ∧ f.rs2 = 0b00010 then some (.fcvtLS f.rd f.rs1 f.f3)
  else if f.f7 = 0b1100000 ∧ f.rs2 = 0b00011 then some (.fcvtLUS f.rd f.rs1 f.f3)
  else if f.f7 = 0b1101000 ∧ f.rs2 = 0b00010 then some (.fcvtSL f.rd f.rs1 f.f3)
  else if f.f7 = 0b1101000 ∧ f.rs2 = 0b00011 then some (.fcvtSLU f.rd f.rs1 f.f3)
  else if f.f7 = 0b0000001 then some (.faddD f.rd f.rs1 f.rs2 f.f3)
  else if f.f7 = 0b0000101 then some (.fsubD f.rd f.rs1 f.rs2 f.f3)
  else if f.f7 = 0b0001001 then some (.fmulD f.rd f.rs1 f.rs2 f.f3)
  else if f.f7 = 0b0001101 then some (.fdivD f.rd f.rs1 f.rs2 f.f3)
  else if f.f7 = 0b0101101 ∧ f.rs2 = 0b00000 then some (.fsqrtD f.rd f.rs1 f.f3)
  else if f.f3 = 0b000 ∧ f.f7 = 0b0010001 then some (.fsgnjD f.rd f.rs1 f.rs2)
  else if f.f3 = 0b001 ∧ f.f7 = 0b0010001 then some (.fsgnjnD f.rd f.rs1 f.rs2)
  else if f.f3 = 0b010 ∧ f.f7 = 0b0010001 then some (.fsgnjxD f.rd f.rs1 f.rs2)
  else if f.f3 = 0b000 ∧ f.f7 = 0b0010101 then some (.fminD f.rd f.rs1 f.rs2)
  else if f.f3 = 0b001 ∧ f.f7 = 0b0010101 then some (.fmaxD f.rd f.rs1 f.rs2)
  else if f.f7 = 0b0100000 ∧ f.rs2 = 0b00001 then some (.fcvtSD f.rd f.rs1 f.f3)
  else if f.f7 = 0b0100001 ∧ f.rs2 = 0b00000 then some (.fcvtDS f.rd f.rs1 f.f3)
  else if f.f3 = 0b010 ∧ f.f7 = 0b1010001 then some (.feqD f.rd f.rs1 f.rs2)
  else if f.f3 = 0b001 ∧ f.f7 = 0b1010001 then some (.fltD f.rd f.rs1 f.rs2)
  else if f.f3 = 0b000 ∧ f.f7 = 0b1010001 then some (.fleD f.rd f.rs1 f.rs2)
  else if f.f3 = 0b001 ∧ f.f7 = 0b1110001 ∧ f.rs2 = 0b00000 then some (.fclassD f.rd f.rs1)
  else if f.f7 = 0b1100001 ∧ f.rs2 = 0b00000 then some (.fcvtWD f.rd f.rs1 f.f3)
  else if f.f7 = 0b1100001 ∧ f.rs2 = 0b00001 then some (.fcvtWUD f.rd f.rs1 f.f3)
  else if f.f7 = 0b1101001 ∧ f.rs2 = 0b00000 then some (.fcvtDW f.rd f.rs1 f.f3)
  else if f.f7 = 0b1101001 ∧ f.rs2 = 0b00001 then some (.fcvtDWU f.rd f.rs1 f.f3)
  else if f.f7 = 0b1100001 ∧ f.rs2 = 0b00010 then some (.fcvtLD f.rd f.rs1 f.f3)
  else if f.f7 = 0b1100001 ∧ f.rs2 = 0b00011 then some (.fcvtLUD f.rd f.rs1 f.f3)
  else if f.f3 = 0b000 ∧ f.f7 = 0b1110001 ∧ f.rs2 = 0b00000 then some (.fmvXD f.rd f.rs1)
  else if f.f7 = 0b1101001 ∧ f.rs2 = 0b00010 then some (.fcvtDL f.rd f.rs1 f.f3)
  else if f.f7 = 0b1101001 ∧ f.rs2 = 0b00011 then some (.fcvtDLU f.rd f.rs1 f.f3)
  else if f.f3 = 0b000 ∧ f.f7 = 0b1111001 ∧ f.rs2 = 0b00000 then some (.fmvDX f.rd f.rs1)
  else none

/-- The row of the table that has these fields, for an XLEN: on RV32 the shift rows have a 5-bit shift amount, on RV64 a 6-bit
one (30_encoding.md R140). -/
def decodeFields (x : Xlen) (f : Fields) : Option Instr :=
  if f.op = 0b0110111 then rowLui f
  else if f.op = 0b0010111 then rowAuipc f
  else if f.op = 0b1101111 then rowJal f
  else if f.op = 0b1100111 then rowJalr f
  else if f.op = 0b1100011 then rowBranch f
  else if f.op = 0b0000011 then rowLoad f
  else if f.op = 0b0100011 then rowStore f
  else if f.op = 0b0010011 then rowOpImm x f
  else if f.op = 0b0110011 then rowOp f
  else if f.op = 0b0001111 then rowMiscMem f
  else if f.op = 0b1110011 then rowSystem f
  else if f.op = 0b0011011 then rowOpImm32 f
  else if f.op = 0b0111011 then rowOp32 f
  else if f.op = 0b0101111 then rowAmo f
  else if f.op = 0b0000111 then rowLoadFp f
  else if f.op = 0b0100111 then rowStoreFp f
  else if f.op = 0b1000011 then rowMadd f
  else if f.op = 0b1000111 then rowMsub f
  else if f.op = 0b1001011 then rowNmsub f
  else if f.op = 0b1001111 then rowNmadd f
  else if f.op = 0b1010011 then rowOpFp f
  else none

/-- The instruction of a 32-bit word (30_encoding.md R146): a row valid for the XLEN and EXT, or the reason there is none. -/
def decode (x : Xlen) (e : Ext) (w : BitVec 32) : Except DecodeError Instr :=
  if w.extractLsb' 0 2 ≠ 3 then .error .compressed
  else
    match decodeFields x (splitWord w) with
    | none => .error .noRow
    | some i => if Machine.validFor x e i then .ok i else .error .notPresent

/-- A 32-bit word of four bytes, lowest address first: instruction words are little-endian (20_memory.md R100). -/
def wordOfBytes (b0 b1 b2 b3 : Byte) : BitVec 32 := b3 ++ b2 ++ b1 ++ b0

/-- The instruction at the head of some bytes, and the bytes after it. -/
def decodeBytes (x : Xlen) (e : Ext) (bs : List Byte) : Except DecodeError (Instr × List Byte) :=
  match bs with
  | b0 :: b1 :: b2 :: b3 :: rest =>
    match decode x e (wordOfBytes b0 b1 b2 b3) with
    | .ok i => .ok (i, rest)
    | .error d => .error d
  | b0 :: _ :: _ => if b0.extractLsb' 0 2 ≠ 3 then .error .compressed else .error .truncated
  | _ => .error .truncated

/-! ### The encoder -/

/-- Fields of an R row. -/
def encR (f7 : BitVec 7) (rs2 rs1 : BitVec 5) (f3 : BitVec 3) (rd : BitVec 5) (op : BitVec 7) : Fields :=
  { f7 := f7, rs2 := rs2, rs1 := rs1, f3 := f3, rd := rd, op := op }
/-- Fields of an I or CSR row. -/
def encI (imm : BitVec 12) (rs1 : BitVec 5) (f3 : BitVec 3) (rd : BitVec 5) (op : BitVec 7) : Fields :=
  encR (imm.extractLsb' 5 7) (imm.extractLsb' 0 5) rs1 f3 rd op
/-- Fields of an S row. -/
def encS (imm : BitVec 12) (rs2 rs1 : BitVec 5) (f3 : BitVec 3) (op : BitVec 7) : Fields :=
  encR (imm.extractLsb' 5 7) rs2 rs1 f3 (imm.extractLsb' 0 5) op
/-- Fields of a B row. -/
def encB (imm : BitVec 13) (rs2 rs1 : BitVec 5) (f3 : BitVec 3) (op : BitVec 7) : Fields :=
  encR (imm.extractLsb' 12 1 ++ imm.extractLsb' 5 6) rs2 rs1 f3 (imm.extractLsb' 1 4 ++ imm.extractLsb' 11 1) op
/-- Fields of a U row. -/
def encU (imm : BitVec 20) (rd : BitVec 5) (op : BitVec 7) : Fields :=
  encR (imm.extractLsb' 13 7) (imm.extractLsb' 8 5) (imm.extractLsb' 3 5) (imm.extractLsb' 0 3) rd op
/-- Fields of a J row. -/
def encJ (imm : BitVec 21) (rd : BitVec 5) (op : BitVec 7) : Fields :=
  encR (imm.extractLsb' 20 1 ++ imm.extractLsb' 5 6) (imm.extractLsb' 1 4 ++ imm.extractLsb' 11 1)
    (imm.extractLsb' 15 5) (imm.extractLsb' 12 3) rd op
/-- Fields of an I-shift row with a 6-bit shift amount. -/
def encSh6 (f6 : BitVec 6) (shamt : BitVec 6) (rs1 : BitVec 5) (f3 : BitVec 3) (rd : BitVec 5) (op : BitVec 7) : Fields :=
  encR (f6 ++ shamt.extractLsb' 5 1) (shamt.extractLsb' 0 5) rs1 f3 rd op
/-- Fields of an AMO row. -/
def encAmo (f5 : BitVec 5) (aq rl : Bool) (rs2 rs1 : BitVec 5) (f3 : BitVec 3) (rd : BitVec 5) : Fields :=
  encR (f5 ++ BitVec.ofBool aq ++ BitVec.ofBool rl) rs2 rs1 f3 rd 0b0101111
/-- Fields of an R4 row. -/
def encR4 (rs3 : BitVec 5) (fmt : BitVec 2) (rs2 rs1 : BitVec 5) (rm : BitVec 3) (rd : BitVec 5) (op : BitVec 7) : Fields :=
  encR (rs3 ++ fmt) rs2 rs1 rm rd op
/-- Fields of a FENCE row. -/
def encFence (fm pred succ : BitVec 4) (rs1 rd : BitVec 5) : Fields :=
  encR (fm ++ pred.extractLsb' 1 3) (pred.extractLsb' 0 1 ++ succ) rs1 0b000 rd 0b0001111

/-- The fields of an instruction. -/
def encodeFields (i : Instr) : Fields :=
  match i with
  | .lui rd imm => encU imm rd 0b0110111
  | .auipc rd imm => encU imm rd 0b0010111
  | .jal rd imm => encJ imm rd 0b1101111
  | .jalr rd rs1 imm => encI imm rs1 0b000 rd 0b1100111
  | .beq rs1 rs2 imm => encB imm rs2 rs1 0b000 0b1100011
  | .bne rs1 rs2 imm => encB imm rs2 rs1 0b001 0b1100011
  | .blt rs1 rs2 imm => encB imm rs2 rs1 0b100 0b1100011
  | .bge rs1 rs2 imm => encB imm rs2 rs1 0b101 0b1100011
  | .bltu rs1 rs2 imm => encB imm rs2 rs1 0b110 0b1100011
  | .bgeu rs1 rs2 imm => encB imm rs2 rs1 0b111 0b1100011
  | .lb rd rs1 imm => encI imm rs1 0b000 rd 0b0000011
  | .lh rd rs1 imm => encI imm rs1 0b001 rd 0b0000011
  | .lw rd rs1 imm => encI imm rs1 0b010 rd 0b0000011
  | .lbu rd rs1 imm => encI imm rs1 0b100 rd 0b0000011
  | .lhu rd rs1 imm => encI imm rs1 0b101 rd 0b0000011
  | .sb rs2 rs1 imm => encS imm rs2 rs1 0b000 0b0100011
  | .sh rs2 rs1 imm => encS imm rs2 rs1 0b001 0b0100011
  | .sw rs2 rs1 imm => encS imm rs2 rs1 0b010 0b0100011
  | .addi rd rs1 imm => encI imm rs1 0b000 rd 0b0010011
  | .slti rd rs1 imm => encI imm rs1 0b010 rd 0b0010011
  | .sltiu rd rs1 imm => encI imm rs1 0b011 rd 0b0010011
  | .xori rd rs1 imm => encI imm rs1 0b100 rd 0b0010011
  | .ori rd rs1 imm => encI imm rs1 0b110 rd 0b0010011
  | .andi rd rs1 imm => encI imm rs1 0b111 rd 0b0010011
  | .slli32 rd rs1 shamt => encR 0b0000000 shamt rs1 0b001 rd 0b0010011
  | .srli32 rd rs1 shamt => encR 0b0000000 shamt rs1 0b101 rd 0b0010011
  | .srai32 rd rs1 shamt => encR 0b0100000 shamt rs1 0b101 rd 0b0010011
  | .add rd rs1 rs2 => encR 0b0000000 rs2 rs1 0b000 rd 0b0110011
  | .sub rd rs1 rs2 => encR 0b0100000 rs2 rs1 0b000 rd 0b0110011
  | .sll rd rs1 rs2 => encR 0b0000000 rs2 rs1 0b001 rd 0b0110011
  | .slt rd rs1 rs2 => encR 0b0000000 rs2 rs1 0b010 rd 0b0110011
  | .sltu rd rs1 rs2 => encR 0b0000000 rs2 rs1 0b011 rd 0b0110011
  | .xor rd rs1 rs2 => encR 0b0000000 rs2 rs1 0b100 rd 0b0110011
  | .srl rd rs1 rs2 => encR 0b0000000 rs2 rs1 0b101 rd 0b0110011
  | .sra rd rs1 rs2 => encR 0b0100000 rs2 rs1 0b101 rd 0b0110011
  | .or rd rs1 rs2 => encR 0b0000000 rs2 rs1 0b110 rd 0b0110011
  | .and rd rs1 rs2 => encR 0b0000000 rs2 rs1 0b111 rd 0b0110011
  | .fence fm pred succ rs1 rd => encFence fm pred succ rs1 rd
  | .fenceI imm rs1 rd => encI imm rs1 0b001 rd 0b0001111
  | .ecall => encI 0b000000000000 0 0b000 0 0b1110011
  | .ebreak => encI 0b000000000001 0 0b000 0 0b1110011
  | .csrrw rd csr rs1 => encI csr rs1 0b001 rd 0b1110011
  | .csrrs rd csr rs1 => encI csr rs1 0b010 rd 0b1110011
  | .csrrc rd csr rs1 => encI csr rs1 0b011 rd 0b1110011
  | .csrrwi rd csr uimm => encI csr uimm 0b101 rd 0b1110011
  | .csrrsi rd csr uimm => encI csr uimm 0b110 rd 0b1110011
  | .csrrci rd csr uimm => encI csr uimm 0b111 rd 0b1110011
  | .lwu rd rs1 imm => encI imm rs1 0b110 rd 0b0000011
  | .ld rd rs1 imm => encI imm rs1 0b011 rd 0b0000011
  | .sd rs2 rs1 imm => encS imm rs2 rs1 0b011 0b0100011
  | .slli rd rs1 shamt => encSh6 0b000000 shamt rs1 0b001 rd 0b0010011
  | .srli rd rs1 shamt => encSh6 0b000000 shamt rs1 0b101 rd 0b0010011
  | .srai rd rs1 shamt => encSh6 0b010000 shamt rs1 0b101 rd 0b0010011
  | .addiw rd rs1 imm => encI imm rs1 0b000 rd 0b0011011
  | .slliw rd rs1 shamt => encR 0b0000000 shamt rs1 0b001 rd 0b0011011
  | .srliw rd rs1 shamt => encR 0b0000000 shamt rs1 0b101 rd 0b0011011
  | .sraiw rd rs1 shamt => encR 0b0100000 shamt rs1 0b101 rd 0b0011011
  | .addw rd rs1 rs2 => encR 0b0000000 rs2 rs1 0b000 rd 0b0111011
  | .subw rd rs1 rs2 => encR 0b0100000 rs2 rs1 0b000 rd 0b0111011
  | .sllw rd rs1 rs2 => encR 0b0000000 rs2 rs1 0b001 rd 0b0111011
  | .srlw rd rs1 rs2 => encR 0b0000000 rs2 rs1 0b101 rd 0b0111011
  | .sraw rd rs1 rs2 => encR 0b0100000 rs2 rs1 0b101 rd 0b0111011
  | .mul rd rs1 rs2 => encR 0b0000001 rs2 rs1 0b000 rd 0b0110011
  | .mulh rd rs1 rs2 => encR 0b0000001 rs2 rs1 0b001 rd 0b0110011
  | .mulhsu rd rs1 rs2 => encR 0b0000001 rs2 rs1 0b010 rd 0b0110011
  | .mulhu rd rs1 rs2 => encR 0b0000001 rs2 rs1 0b011 rd 0b0110011
  | .div rd rs1 rs2 => encR 0b0000001 rs2 rs1 0b100 rd 0b0110011
  | .divu rd rs1 rs2 => encR 0b0000001 rs2 rs1 0b101 rd 0b0110011
  | .rem rd rs1 rs2 => encR 0b0000001 rs2 rs1 0b110 rd 0b0110011
  | .remu rd rs1 rs2 => encR 0b0000001 rs2 rs1 0b111 rd 0b0110011
  | .mulw rd rs1 rs2 => encR 0b0000001 rs2 rs1 0b000 rd 0b0111011
  | .divw rd rs1 rs2 => encR 0b0000001 rs2 rs1 0b100 rd 0b0111011
  | .divuw rd rs1 rs2 => encR 0b0000001 rs2 rs1 0b101 rd 0b0111011
  | .remw rd rs1 rs2 => encR 0b0000001 rs2 rs1 0b110 rd 0b0111011
  | .remuw rd rs1 rs2 => encR 0b0000001 rs2 rs1 0b111 rd 0b0111011
  | .lrW rd rs1 aq rl => encAmo 0b00010 aq rl 0b00000 rs1 0b010 rd
  | .scW rd rs2 rs1 aq rl => encAmo 0b00011 aq rl rs2 rs1 0b010 rd
  | .amoswapW rd rs2 rs1 aq rl => encAmo 0b00001 aq rl rs2 rs1 0b010 rd
  | .amoaddW rd rs2 rs1 aq rl => encAmo 0b00000 aq rl rs2 rs1 0b010 rd
  | .amoxorW rd rs2 rs1 aq rl => encAmo 0b00100 aq rl rs2 rs1 0b010 rd
  | .amoandW rd rs2 rs1 aq rl => encAmo 0b01100 aq rl rs2 rs1 0b010 rd
  | .amoorW rd rs2 rs1 aq rl => encAmo 0b01000 aq rl rs2 rs1 0b010 rd
  | .amominW rd rs2 rs1 aq rl => encAmo 0b10000 aq rl rs2 rs1 0b010 rd
  | .amomaxW rd rs2 rs1 aq rl => encAmo 0b10100 aq rl rs2 rs1 0b010 rd
  | .amominuW rd rs2 rs1 aq rl => encAmo 0b11000 aq rl rs2 rs1 0b010 rd
  | .amomaxuW rd rs2 rs1 aq rl => encAmo 0b11100 aq rl rs2 rs1 0b010 rd
  | .lrD rd rs1 aq rl => encAmo 0b00010 aq rl 0b00000 rs1 0b011 rd
  | .scD rd rs2 rs1 aq rl => encAmo 0b00011 aq rl rs2 rs1 0b011 rd
  | .amoswapD rd rs2 rs1 aq rl => encAmo 0b00001 aq rl rs2 rs1 0b011 rd
  | .amoaddD rd rs2 rs1 aq rl => encAmo 0b00000 aq rl rs2 rs1 0b011 rd
  | .amoxorD rd rs2 rs1 aq rl => encAmo 0b00100 aq rl rs2 rs1 0b011 rd
  | .amoandD rd rs2 rs1 aq rl => encAmo 0b01100 aq rl rs2 rs1 0b011 rd
  | .amoorD rd rs2 rs1 aq rl => encAmo 0b01000 aq rl rs2 rs1 0b011 rd
  | .amominD rd rs2 rs1 aq rl => encAmo 0b10000 aq rl rs2 rs1 0b011 rd
  | .amomaxD rd rs2 rs1 aq rl => encAmo 0b10100 aq rl rs2 rs1 0b011 rd
  | .amominuD rd rs2 rs1 aq rl => encAmo 0b11000 aq rl rs2 rs1 0b011 rd
  | .amomaxuD rd rs2 rs1 aq rl => encAmo 0b11100 aq rl rs2 rs1 0b011 rd
  | .flw rd rs1 imm => encI imm rs1 0b010 rd 0b0000111
  | .fsw rs2 rs1 imm => encS imm rs2 rs1 0b010 0b0100111
  | .fmaddS rd rs1 rs2 rs3 rm => encR4 rs3 0b00 rs2 rs1 rm rd 0b1000011
  | .fmsubS rd rs1 rs2 rs3 rm => encR4 rs3 0b00 rs2 rs1 rm rd 0b1000111
  | .fnmsubS rd rs1 rs2 rs3 rm => encR4 rs3 0b00 rs2 rs1 rm rd 0b1001011
  | .fnmaddS rd rs1 rs2 rs3 rm => encR4 rs3 0b00 rs2 rs1 rm rd 0b1001111
  | .faddS rd rs1 rs2 rm => encR 0b0000000 rs2 rs1 rm rd 0b1010011
  | .fsubS rd rs1 rs2 rm => encR 0b0000100 rs2 rs1 rm rd 0b1010011
  | .fmulS rd rs1 rs2 rm => encR 0b0001000 rs2 rs1 rm rd 0b1010011
  | .fdivS rd rs1 rs2 rm => encR 0b0001100 rs2 rs1 rm rd 0b1010011
  | .fsqrtS rd rs1 rm => encR 0b0101100 0b00000 rs1 rm rd 0b1010011
  | .fsgnjS rd rs1 rs2 => encR 0b0010000 rs2 rs1 0b000 rd 0b1010011
  | .fsgnjnS rd rs1 rs2 => encR 0b0010000 rs2 rs1 0b001 rd 0b1010011
  | .fsgnjxS rd rs1 rs2 => encR 0b0010000 rs2 rs1 0b010 rd 0b1010011
  | .fminS rd rs1 rs2 => encR 0b0010100 rs2 rs1 0b000 rd 0b1010011
  | .fmaxS rd rs1 rs2 => encR 0b0010100 rs2 rs1 0b001 rd 0b1010011
  | .fcvtWS rd rs1 rm => encR 0b1100000 0b00000 rs1 rm rd 0b1010011
  | .fcvtWUS rd rs1 rm => encR 0b1100000 0b00001 rs1 rm rd 0b1010011
  | .fmvXW rd rs1 => encR 0b1110000 0b00000 rs1 0b000 rd 0b1010011
  | .feqS rd rs1 rs2 => encR 0b1010000 rs2 rs1 0b010 rd 0b1010011
  | .fltS rd rs1 rs2 => encR 0b1010000 rs2 rs1 0b001 rd 0b1010011
  | .fleS rd rs1 rs2 => encR 0b1010000 rs2 rs1 0b000 rd 0b1010011
  | .fclassS rd rs1 => encR 0b1110000 0b00000 rs1 0b001 rd 0b1010011
  | .fcvtSW rd rs1 rm => encR 0b1101000 0b00000 rs1 rm rd 0b1010011
  | .fcvtSWU rd rs1 rm => encR 0b1101000 0b00001 rs1 rm rd 0b1010011
  | .fmvWX rd rs1 => encR 0b1111000 0b00000 rs1 0b000 rd 0b1010011
  | .fcvtLS rd rs1 rm => encR 0b1100000 0b00010 rs1 rm rd 0b1010011
  | .fcvtLUS rd rs1 rm => encR 0b1100000 0b00011 rs1 rm rd 0b1010011
  | .fcvtSL rd rs1 rm => encR 0b1101000 0b00010 rs1 rm rd 0b1010011
  | .fcvtSLU rd rs1 rm => encR 0b1101000 0b00011 rs1 rm rd 0b1010011
  | .fld rd rs1 imm => encI imm rs1 0b011 rd 0b0000111
  | .fsd rs2 rs1 imm => encS imm rs2 rs1 0b011 0b0100111
  | .fmaddD rd rs1 rs2 rs3 rm => encR4 rs3 0b01 rs2 rs1 rm rd 0b1000011
  | .fmsubD rd rs1 rs2 rs3 rm => encR4 rs3 0b01 rs2 rs1 rm rd 0b1000111
  | .fnmsubD rd rs1 rs2 rs3 rm => encR4 rs3 0b01 rs2 rs1 rm rd 0b1001011
  | .fnmaddD rd rs1 rs2 rs3 rm => encR4 rs3 0b01 rs2 rs1 rm rd 0b1001111
  | .faddD rd rs1 rs2 rm => encR 0b0000001 rs2 rs1 rm rd 0b1010011
  | .fsubD rd rs1 rs2 rm => encR 0b0000101 rs2 rs1 rm rd 0b1010011
  | .fmulD rd rs1 rs2 rm => encR 0b0001001 rs2 rs1 rm rd 0b1010011
  | .fdivD rd rs1 rs2 rm => encR 0b0001101 rs2 rs1 rm rd 0b1010011
  | .fsqrtD rd rs1 rm => encR 0b0101101 0b00000 rs1 rm rd 0b1010011
  | .fsgnjD rd rs1 rs2 => encR 0b0010001 rs2 rs1 0b000 rd 0b1010011
  | .fsgnjnD rd rs1 rs2 => encR 0b0010001 rs2 rs1 0b001 rd 0b1010011
  | .fsgnjxD rd rs1 rs2 => encR 0b0010001 rs2 rs1 0b010 rd 0b1010011
  | .fminD rd rs1 rs2 => encR 0b0010101 rs2 rs1 0b000 rd 0b1010011
  | .fmaxD rd rs1 rs2 => encR 0b0010101 rs2 rs1 0b001 rd 0b1010011
  | .fcvtSD rd rs1 rm => encR 0b0100000 0b00001 rs1 rm rd 0b1010011
  | .fcvtDS rd rs1 rm => encR 0b0100001 0b00000 rs1 rm rd 0b1010011
  | .feqD rd rs1 rs2 => encR 0b1010001 rs2 rs1 0b010 rd 0b1010011
  | .fltD rd rs1 rs2 => encR 0b1010001 rs2 rs1 0b001 rd 0b1010011
  | .fleD rd rs1 rs2 => encR 0b1010001 rs2 rs1 0b000 rd 0b1010011
  | .fclassD rd rs1 => encR 0b1110001 0b00000 rs1 0b001 rd 0b1010011
  | .fcvtWD rd rs1 rm => encR 0b1100001 0b00000 rs1 rm rd 0b1010011
  | .fcvtWUD rd rs1 rm => encR 0b1100001 0b00001 rs1 rm rd 0b1010011
  | .fcvtDW rd rs1 rm => encR 0b1101001 0b00000 rs1 rm rd 0b1010011
  | .fcvtDWU rd rs1 rm => encR 0b1101001 0b00001 rs1 rm rd 0b1010011
  | .fcvtLD rd rs1 rm => encR 0b1100001 0b00010 rs1 rm rd 0b1010011
  | .fcvtLUD rd rs1 rm => encR 0b1100001 0b00011 rs1 rm rd 0b1010011
  | .fmvXD rd rs1 => encR 0b1110001 0b00000 rs1 0b000 rd 0b1010011
  | .fcvtDL rd rs1 rm => encR 0b1101001 0b00010 rs1 rm rd 0b1010011
  | .fcvtDLU rd rs1 rm => encR 0b1101001 0b00011 rs1 rm rd 0b1010011
  | .fmvDX rd rs1 => encR 0b1111001 0b00000 rs1 0b000 rd 0b1010011

/-- The word of a well-formed instruction (30_encoding.md R133). -/
def encode (i : Instr) : BitVec 32 := joinWord (encodeFields i)

/-- The four bytes of an instruction, lowest address first (20_memory.md R100). -/
def encodeBytes (i : Instr) : List Byte :=
  [(encode i).extractLsb' 0 8, (encode i).extractLsb' 8 8, (encode i).extractLsb' 16 8, (encode i).extractLsb' 24 8]

/-- The four bytes of a word, lowest address first (20_memory.md R100). -/
def wordBytes (w : Nat) : List Byte :=
  [BitVec.ofNat 8 w, BitVec.ofNat 8 (w / 2 ^ 8), BitVec.ofNat 8 (w / 2 ^ 16), BitVec.ofNat 8 (w / 2 ^ 24)]

/-- What the decoder reads from an instruction whose bits are w, for the machine at reset: RV64 with every group. The words
of the three rows that exist on RV32 only (SLLI, SRLI, SRAI with a 5-bit shift amount) are words of the RV64 rows of the same
mnemonic (30_encoding.md R140; log 13). -/
def decodeTableWord (nbits w : Nat) : Option Instr :=
  match decodeBytes .rv64 .all (wordBytes (w % 2 ^ nbits)) with
  | .ok r => some r.1
  | .error _ => none

end Sys2Proof
end

