-- ==== Sys2Proof/Machine/Alu.lean ====
section
/-! DEFINITION. What the integer instructions compute, at every width (40_rv32i.md, 41_rv64i.md, 42_m.md). -/

namespace Sys2Proof.Machine

/-- x + y modulo 2^n (40_rv32i.md R227). -/
def aluAdd (n : Nat) (x y : BitVec n) : BitVec n := x + y
/-- x - y modulo 2^n (R228). -/
def aluSub (n : Nat) (x y : BitVec n) : BitVec n := x - y
/-- bitwise exclusive or (R232). -/
def aluXor (n : Nat) (x y : BitVec n) : BitVec n := x ^^^ y
/-- bitwise or (R235). -/
def aluOr (n : Nat) (x y : BitVec n) : BitVec n := x ||| y
/-- bitwise and (R236). -/
def aluAnd (n : Nat) (x y : BitVec n) : BitVec n := x &&& y
/-- shift left by the low log2(n) bits of y (R229); n is 32 or 64. -/
def aluSll (n : Nat) (x y : BitVec n) : BitVec n := x <<< (y.toNat % n)
/-- logical shift right (R233). -/
def aluSrl (n : Nat) (x y : BitVec n) : BitVec n := x >>> (y.toNat % n)
/-- arithmetic shift right (R234). -/
def aluSra (n : Nat) (x y : BitVec n) : BitVec n := x.sshiftRight (y.toNat % n)
/-- x <s y (R230). -/
def aluLt (n : Nat) (x y : BitVec n) : Bool := decide (x.toInt < y.toInt)
/-- x <u y (R231). -/
def aluLtu (n : Nat) (x y : BitVec n) : Bool := decide (x.toNat < y.toNat)
/-- x == y (R204). -/
def aluEq (n : Nat) (x y : BitVec n) : Bool := decide (x = y)

/-- The low n bits of the product (42_m.md R270). -/
def aluMul (n : Nat) (x y : BitVec n) : BitVec n := x * y
/-- The high n bits of the signed product (R271). -/
def aluMulh (n : Nat) (x y : BitVec n) : BitVec n := BitVec.ofInt n (x.toInt * y.toInt / 2 ^ n)
/-- The high n bits of the product of signed x and unsigned y (R272). -/
def aluMulhsu (n : Nat) (x y : BitVec n) : BitVec n := BitVec.ofInt n (x.toInt * (y.toNat : Int) / 2 ^ n)
/-- The high n bits of the unsigned product (R273). -/
def aluMulhu (n : Nat) (x y : BitVec n) : BitVec n := BitVec.ofNat n (x.toNat * y.toNat / 2 ^ n)
/-- The signed quotient toward zero (R274): all ones by zero; the overflow -2^(n-1) by -1 wraps to -2^(n-1). -/
def aluDiv (n : Nat) (x y : BitVec n) : BitVec n :=
  if y = 0 then BitVec.allOnes n else BitVec.ofInt n (x.toInt.tdiv y.toInt)
/-- The unsigned quotient (R275): all ones by zero. -/
def aluDivu (n : Nat) (x y : BitVec n) : BitVec n :=
  if y = 0 then BitVec.allOnes n else BitVec.ofNat n (x.toNat / y.toNat)
/-- The remainder with the sign of the dividend (R276): the dividend by zero; 0 on overflow. -/
def aluRem (n : Nat) (x y : BitVec n) : BitVec n :=
  if y = 0 then x else BitVec.ofInt n (x.toInt.tmod y.toInt)
/-- The unsigned remainder (R277): the dividend by zero. -/
def aluRemu (n : Nat) (x y : BitVec n) : BitVec n :=
  if y = 0 then x else BitVec.ofNat n (x.toNat % y.toNat)

/-- The function of AMOSWAP (43_a.md R292): t is the loaded value, v the operand. -/
def amoSwap (n : Nat) (_t v : BitVec n) : BitVec n := v
/-- AMOADD (R293). -/
def amoAdd (n : Nat) (t v : BitVec n) : BitVec n := t + v
/-- AMOXOR (R294). -/
def amoXor (n : Nat) (t v : BitVec n) : BitVec n := t ^^^ v
/-- AMOAND (R295). -/
def amoAnd (n : Nat) (t v : BitVec n) : BitVec n := t &&& v
/-- AMOOR (R296). -/
def amoOr (n : Nat) (t v : BitVec n) : BitVec n := t ||| v
/-- AMOMIN (R297). -/
def amoMin (n : Nat) (t v : BitVec n) : BitVec n := if t.toInt < v.toInt then t else v
/-- AMOMAX (R298). -/
def amoMax (n : Nat) (t v : BitVec n) : BitVec n := if t.toInt < v.toInt then v else t
/-- AMOMINU (R299). -/
def amoMinu (n : Nat) (t v : BitVec n) : BitVec n := if t.toNat < v.toNat then t else v
/-- AMOMAXU (R300). -/
def amoMaxu (n : Nat) (t v : BitVec n) : BitVec n := if t.toNat < v.toNat then v else t

end Sys2Proof.Machine
end

