-- ==== Sys2Proof/Machine/Float.lean ====
section
/-! DEFINITION. IEEE 754-2008 arithmetic with RISC-V's conventions (44_f.md and 45_d.md headers and rules): operands are
read exactly, the result is computed exactly and rounded once. Bit patterns are natural numbers here; log 14 lists what is
taken from IEEE 754-2008. -/

namespace Sys2Proof.Machine

/-- A binary interchange format. -/
structure Fmt where
  /-- bits of the exponent field -/
  expBits : Nat
  /-- bits of the fraction field -/
  fracBits : Nat
  deriving DecidableEq, Repr

/-- Single precision. -/
def Fmt.single : Fmt := { expBits := 8, fracBits := 23 }
/-- Double precision. -/
def Fmt.double : Fmt := { expBits := 11, fracBits := 52 }

/-- The weight of the sign bit, 2^(width - 1). -/
def Fmt.signBit (f : Fmt) : Nat := 2 ^ (f.expBits + f.fracBits)
/-- The pattern of +infinity. -/
def Fmt.infBits (f : Fmt) : Nat := (2 ^ f.expBits - 1) * 2 ^ f.fracBits
/-- The canonical NaN: 0x7FC00000 in single precision (44_f.md header). -/
def Fmt.canonicalNan (f : Fmt) : Nat := f.infBits + 2 ^ (f.fracBits - 1)
/-- The exponent of the least significant bit of a subnormal. -/
def Fmt.qmin (f : Fmt) : Int := 1 - (2 ^ (f.expBits - 1) - 1 : Int) - (f.fracBits : Int)

/-- The rounding modes (10_state.md R29). -/
inductive RoundMode where
  /-- to nearest, ties to even -/
  | rne
  /-- toward zero -/
  | rtz
  /-- down -/
  | rdn
  /-- up -/
  | rup
  /-- to nearest, ties to max magnitude -/
  | rmm
  deriving DecidableEq, Repr

/-- Exception flags NV, DZ, OF, UF, NX in bits 4 to 0, as in fflags (10_state.md R28). -/
abbrev FlagBits := BitVec 5
/-- invalid operation -/
def flagNV : FlagBits := 0b10000
/-- divide by zero -/
def flagDZ : FlagBits := 0b01000
/-- overflow -/
def flagOF : FlagBits := 0b00100
/-- underflow -/
def flagUF : FlagBits := 0b00010
/-- inexact -/
def flagNX : FlagBits := 0b00001

/-- A floating-point result: the bit pattern, and the flags raised. -/
abbrev FpResult := Nat × FlagBits

/-- What a bit pattern stands for. -/
inductive Datum where
  /-- a NaN -/
  | nan (signaling : Bool)
  /-- an infinity -/
  | inf (neg : Bool)
  /-- the number (-1)^neg · m · 2^e; m = 0 is a signed zero -/
  | fin (neg : Bool) (m : Nat) (e : Int)
  deriving DecidableEq, Repr

/-- The sign bit of a pattern. -/
def Fmt.neg (f : Fmt) (b : Nat) : Bool := b / f.signBit % 2 = 1
/-- The exponent field of a pattern. -/
def Fmt.expField (f : Fmt) (b : Nat) : Nat := b / 2 ^ f.fracBits % 2 ^ f.expBits
/-- The fraction field of a pattern. -/
def Fmt.fracField (f : Fmt) (b : Nat) : Nat := b % 2 ^ f.fracBits

/-- Reads a bit pattern. -/
def Fmt.datum (f : Fmt) (b : Nat) : Datum :=
  if f.expField b = 2 ^ f.expBits - 1 then
    if f.fracField b = 0 then .inf (f.neg b) else .nan (decide (f.fracField b < 2 ^ (f.fracBits - 1)))
  else if f.expField b = 0 then .fin (f.neg b) (f.fracField b) f.qmin
  else .fin (f.neg b) (2 ^ f.fracBits + f.fracField b) (f.qmin + (f.expField b - 1 : Nat))

/-- The same datum with the opposite sign. -/
def Datum.negate : Datum → Datum
  | .nan s => .nan s
  | .inf n => .inf (!n)
  | .fin n m e => .fin (!n) m e

/-- Whether it is a NaN. -/
def Datum.isNan : Datum → Bool
  | .nan _ => true
  | _ => false

/-- Whether it is a signaling NaN. -/
def Datum.isSignaling : Datum → Bool
  | .nan s => s
  | _ => false

/-- Whether the magnitude quo + rem/2^sh is rounded up to quo + 1. -/
def roundUp (rm : RoundMode) (neg : Bool) (quo rem sh : Nat) : Bool :=
  match rm with
  | .rne => decide (2 ^ sh < 2 * rem) || (decide (2 * rem = 2 ^ sh) && decide (quo % 2 = 1))
  | .rtz => false
  | .rdn => neg && decide (rem ≠ 0)
  | .rup => !neg && decide (rem ≠ 0)
  | .rmm => decide (rem ≠ 0) && decide (2 ^ sh ≤ 2 * rem)

/-- The magnitude m·2^e rounded to a multiple of 2^q: the multiple, and whether it is inexact. -/
def roundAt (rm : RoundMode) (neg : Bool) (m : Nat) (e q : Int) : Nat × Bool :=
  if q ≤ e then (m * 2 ^ (e - q).toNat, false)
  else
    let sh := (q - e).toNat
    let quo := m / 2 ^ sh
    let rem := m % 2 ^ sh
    (if roundUp rm neg quo rem sh then quo + 1 else quo, decide (rem ≠ 0))

/-- The pattern of a magnitude pattern with a sign. -/
def Fmt.withSign (f : Fmt) (neg : Bool) (b : Nat) : Nat := if neg then b + f.signBit else b

/-- The magnitude an overflow gives: infinity, or the largest finite number where the mode rounds away from it. -/
def Fmt.overflowBits (f : Fmt) (rm : RoundMode) (neg : Bool) : Nat :=
  match rm with
  | .rne | .rmm => f.infBits
  | .rtz => f.infBits - 1
  | .rdn => if neg then f.infBits else f.infBits - 1
  | .rup => if neg then f.infBits - 1 else f.infBits

/-- The number (-1)^neg · m · 2^e rounded to the format: `round_rm` of 44_f.md. Underflow is detected after rounding:
the result is inexact, and rounded as if the exponent had no lower bound it would be below the smallest normal number. -/
def Fmt.round (f : Fmt) (rm : RoundMode) (neg : Bool) (m : Nat) (e : Int) : FpResult :=
  if m = 0 then (f.withSign neg 0, 0)
  else
    let q0 : Int := e + (Nat.log2 m : Int) - (f.fracBits : Int)
    let q : Int := if f.qmin ≤ q0 then q0 else f.qmin
    let r := roundAt rm neg m e q
    let bits := (q - f.qmin).toNat * 2 ^ f.fracBits + r.1
    if f.infBits ≤ bits then (f.withSign neg (f.overflowBits rm neg), flagOF ||| flagNX)
    else
      let tiny : Bool := decide (q0 < f.qmin) &&
        !(decide (q0 = f.qmin - 1) && decide ((roundAt rm neg m e q0).1 = 2 ^ (f.fracBits + 1)))
      (f.withSign neg bits,
        if r.2 then (if tiny then flagUF ||| flagNX else flagNX) else 0)

/-- The canonical NaN, raising NV if asked. -/
def Fmt.nanResult (f : Fmt) (invalid : Bool) : FpResult := (f.canonicalNan, if invalid then flagNV else 0)

/-- An infinity. -/
def Fmt.infResult (f : Fmt) (neg : Bool) : FpResult := (f.withSign neg f.infBits, 0)

/-- A magnitude with a sign, as an integer. -/
def signedNat (neg : Bool) (m : Nat) : Int := if neg then -(m : Int) else (m : Int)

/-- The exact sum of two finite numbers, rounded. An exact zero sum of opposite signs is +0, and -0 when rounding down. -/
def Fmt.sumFin (f : Fmt) (rm : RoundMode) (na : Bool) (ma : Nat) (ea : Int) (nb : Bool) (mb : Nat) (eb : Int) :
    FpResult :=
  let e := if ea ≤ eb then ea else eb
  let v := signedNat na (ma * 2 ^ (ea - e).toNat) + signedNat nb (mb * 2 ^ (eb - e).toNat)
  if v = 0 then (f.withSign (if na = nb then na else decide (rm = .rdn)) 0, 0)
  else f.round rm (decide (v < 0)) v.natAbs e

/-- The sum of two data. -/
def Fmt.addDatum (f : Fmt) (rm : RoundMode) (a b : Datum) : FpResult :=
  match a, b with
  | .nan s, b => f.nanResult (s || b.isSignaling)
  | _, .nan s => f.nanResult s
  | .inf na, .inf nb => if na = nb then f.infResult na else f.nanResult true
  | .inf na, .fin _ _ _ => f.infResult na
  | .fin _ _ _, .inf nb => f.infResult nb
  | .fin na ma ea, .fin nb mb eb => f.sumFin rm na ma ea nb mb eb

/-- a + b (44_f.md R326). -/
def Fmt.add (f : Fmt) (rm : RoundMode) (a b : Nat) : FpResult := f.addDatum rm (f.datum a) (f.datum b)

/-- a - b (44_f.md R327). -/
def Fmt.sub (f : Fmt) (rm : RoundMode) (a b : Nat) : FpResult := f.addDatum rm (f.datum a) (f.datum b).negate

/-- a * b (44_f.md R328): zero times infinity raises NV. -/
def Fmt.mul (f : Fmt) (rm : RoundMode) (a b : Nat) : FpResult :=
  match f.datum a, f.datum b with
  | .nan s, b => f.nanResult (s || b.isSignaling)
  | _, .nan s => f.nanResult s
  | .inf na, .inf nb => f.infResult (na != nb)
  | .inf na, .fin nb mb _ => if mb = 0 then f.nanResult true else f.infResult (na != nb)
  | .fin na ma _, .inf nb => if ma = 0 then f.nanResult true else f.infResult (na != nb)
  | .fin na ma ea, .fin nb mb eb => f.round rm (na != nb) (ma * mb) (ea + eb)

/-- (a * b) + c with a single rounding (44_f.md R322): infinity times zero raises NV even when c is a quiet NaN. -/
def Fmt.fmaDatum (f : Fmt) (rm : RoundMode) (a b c : Datum) : FpResult :=
  match a, b with
  | .nan s, b => f.nanResult (s || b.isSignaling || c.isSignaling)
  | _, .nan s => f.nanResult (s || c.isSignaling)
  | .inf na, .inf nb => if c.isNan then f.nanResult c.isSignaling else f.addDatum rm (.inf (na != nb)) c
  | .inf na, .fin nb mb _ =>
    if mb = 0 then f.nanResult true
    else if c.isNan then f.nanResult c.isSignaling else f.addDatum rm (.inf (na != nb)) c
  | .fin na ma _, .inf nb =>
    if ma = 0 then f.nanResult true
    else if c.isNan then f.nanResult c.isSignaling else f.addDatum rm (.inf (na != nb)) c
  | .fin na ma ea, .fin nb mb eb => f.addDatum rm (.fin (na != nb) (ma * mb) (ea + eb)) c

/-- (a * b) + c (44_f.md R322). -/
def Fmt.fmadd (f : Fmt) (rm : RoundMode) (a b c : Nat) : FpResult :=
  f.fmaDatum rm (f.datum a) (f.datum b) (f.datum c)
/-- (a * b) - c (44_f.md R323). -/
def Fmt.fmsub (f : Fmt) (rm : RoundMode) (a b c : Nat) : FpResult :=
  f.fmaDatum rm (f.datum a) (f.datum b) (f.datum c).negate
/-- -(a * b) + c (44_f.md R324). -/
def Fmt.fnmsub (f : Fmt) (rm : RoundMode) (a b c : Nat) : FpResult :=
  f.fmaDatum rm (f.datum a).negate (f.datum b) (f.datum c)
/-- -(a * b) - c (44_f.md R325). -/
def Fmt.fnmadd (f : Fmt) (rm : RoundMode) (a b c : Nat) : FpResult :=
  f.fmaDatum rm (f.datum a).negate (f.datum b) (f.datum c).negate

/-- The quotient of finite numbers with mb ≠ 0: enough bits to round it, and one more bit that says whether it is exact. -/
def Fmt.quotFin (f : Fmt) (rm : RoundMode) (neg : Bool) (ma : Nat) (ea : Int) (mb : Nat) (eb : Int) : FpResult :=
  let k := f.fracBits + 4 + Nat.log2 mb
  let n := ma * 2 ^ k
  f.round rm neg (2 * (n / mb) + (if n % mb = 0 then 0 else 1)) (ea - eb - (k : Int) - 1)

/-- a / b (44_f.md R329): a finite non-zero number by zero raises DZ; zero by zero and infinity by infinity raise NV. -/
def Fmt.div (f : Fmt) (rm : RoundMode) (a b : Nat) : FpResult :=
  match f.datum a, f.datum b with
  | .nan s, b => f.nanResult (s || b.isSignaling)
  | _, .nan s => f.nanResult s
  | .inf _, .inf _ => f.nanResult true
  | .inf na, .fin nb _ _ => f.infResult (na != nb)
  | .fin na _ _, .inf nb => (f.withSign (na != nb) 0, 0)
  | .fin na ma ea, .fin nb mb eb =>
    if mb = 0 then
      if ma = 0 then f.nanResult true else (f.withSign (na != nb) f.infBits, flagDZ)
    else f.quotFin rm (na != nb) ma ea mb eb

/-- The integer square root of n, found bit by bit from bit b - 1 down. -/
def isqrtFrom (n : Nat) : (b r : Nat) → Nat
  | 0, r => r
  | b + 1, r => if (r + 2 ^ b) * (r + 2 ^ b) ≤ n then isqrtFrom n b (r + 2 ^ b) else isqrtFrom n b r

/-- The integer square root. -/
def isqrt (n : Nat) : Nat := isqrtFrom n (Nat.log2 n / 2 + 1) 0

/-- The square root of a positive number: enough bits to round it, and one more bit that says whether it is exact. -/
def Fmt.rootFin (f : Fmt) (rm : RoundMode) (m : Nat) (e : Int) : FpResult :=
  let k : Nat := 2 * (f.fracBits + 4) + (e % 2).toNat
  let n := m * 2 ^ k
  f.round rm false (2 * isqrt n + (if isqrt n * isqrt n = n then 0 else 1)) ((e - (k : Int)) / 2 - 1)

/-- sqrt(a) (44_f.md R330): a negative non-zero operand raises NV; the square root of -0 is -0. -/
def Fmt.sqrt (f : Fmt) (rm : RoundMode) (a : Nat) : FpResult :=
  match f.datum a with
  | .nan s => f.nanResult s
  | .inf n => if n then f.nanResult true else f.infResult false
  | .fin n m e => if m = 0 then (f.withSign n 0, 0) else if n then f.nanResult true else f.rootFin rm m e

/-- A pattern of one format rounded to another (45_d.md R376, R377): a signaling NaN raises NV, any NaN becomes the
canonical one. -/
def Fmt.convert (src dst : Fmt) (rm : RoundMode) (a : Nat) : FpResult :=
  match src.datum a with
  | .nan s => dst.nanResult s
  | .inf n => dst.infResult n
  | .fin n m e => dst.round rm n m e

/-- An integer rounded to the format (44_f.md R343); zero gives +0. -/
def Fmt.ofInt (f : Fmt) (rm : RoundMode) (v : Int) : FpResult := f.round rm (decide (v < 0)) v.natAbs 0

/-- A pattern rounded to an integer in lo..hi (44_f.md R336): out of range saturates and raises NV, a NaN gives hi, an
inexact result in range raises NX. -/
def Fmt.toInt (f : Fmt) (rm : RoundMode) (lo hi : Int) (a : Nat) : Int × FlagBits :=
  match f.datum a with
  | .nan _ => (hi, flagNV)
  | .inf n => (if n then lo else hi, flagNV)
  | .fin n m e =>
    let r := roundAt rm n m e 0
    let v := signedNat n r.1
    if v < lo then (lo, flagNV) else if hi < v then (hi, flagNV) else (v, if r.2 then flagNX else 0)

/-- A number that orders the patterns that are no NaN as their values are ordered; it is 0 for both zeros. -/
def Fmt.orderKey (f : Fmt) (a : Nat) : Int := signedNat (f.neg a) (a % f.signBit)

/-- min(a, b) (44_f.md R334): -0 is smaller than +0; one NaN gives the other operand, two the canonical NaN; a signaling
NaN raises NV. -/
def Fmt.min (f : Fmt) (a b : Nat) : FpResult :=
  let da := f.datum a
  let db := f.datum b
  let fl : FlagBits := if da.isSignaling || db.isSignaling then flagNV else 0
  if da.isNan && db.isNan then (f.canonicalNan, fl)
  else if da.isNan then (b, fl)
  else if db.isNan then (a, fl)
  else if f.orderKey a < f.orderKey b then (a, fl)
  else if f.orderKey b < f.orderKey a then (b, fl)
  else (if f.neg a then a else b, fl)

/-- max(a, b) (44_f.md R335). -/
def Fmt.max (f : Fmt) (a b : Nat) : FpResult :=
  let da := f.datum a
  let db := f.datum b
  let fl : FlagBits := if da.isSignaling || db.isSignaling then flagNV else 0
  if da.isNan && db.isNan then (f.canonicalNan, fl)
  else if da.isNan then (b, fl)
  else if db.isNan then (a, fl)
  else if f.orderKey a < f.orderKey b then (b, fl)
  else if f.orderKey b < f.orderKey a then (a, fl)
  else (if f.neg a then b else a, fl)

/-- a == b, quiet (44_f.md R339): NV only for a signaling NaN. -/
def Fmt.eq (f : Fmt) (a b : Nat) : Bool × FlagBits :=
  let da := f.datum a
  let db := f.datum b
  if da.isNan || db.isNan then (false, if da.isSignaling || db.isSignaling then flagNV else 0)
  else (decide (f.orderKey a = f.orderKey b), 0)

/-- a < b, signaling (44_f.md R340): NV for any NaN. -/
def Fmt.lt (f : Fmt) (a b : Nat) : Bool × FlagBits :=
  if (f.datum a).isNan || (f.datum b).isNan then (false, flagNV)
  else (decide (f.orderKey a < f.orderKey b), 0)

/-- a <= b, signaling (44_f.md R341): NV for any NaN. -/
def Fmt.le (f : Fmt) (a b : Nat) : Bool × FlagBits :=
  if (f.datum a).isNan || (f.datum b).isNan then (false, flagNV)
  else (decide (f.orderKey a ≤ f.orderKey b), 0)

/-- The bit of the class of a pattern (44_f.md R342): 0 negative infinity, 1 negative normal, 2 negative subnormal, 3
negative zero, 4 positive zero, 5 positive subnormal, 6 positive normal, 7 positive infinity, 8 signaling NaN, 9 quiet
NaN. -/
def Fmt.classBit (f : Fmt) (a : Nat) : Nat :=
  match f.datum a with
  | .nan s => if s then 8 else 9
  | .inf n => if n then 0 else 7
  | .fin n m _ =>
    if m = 0 then (if n then 3 else 4)
    else if f.expField a = 0 then (if n then 2 else 5)
    else (if n then 1 else 6)

/-- FSGNJ, FSGNJN, FSGNJX (44_f.md R331 to R333): the pattern a with the sign given. -/
def Fmt.setSign (f : Fmt) (neg : Bool) (a : Nat) : Nat := f.withSign neg (a % f.signBit)

end Sys2Proof.Machine
end

