-- ==== Sys2Proof/Machine/State.lean ====
section
/-! DEFINITION. The state of the machine: per hart pc, registers, CSRs, pairing state, dependency bookkeeping and the
stream, and shared between harts the history of memory operations (10_state.md R35, 92_eei_decisions.md D22); the reasons a
step can stop for; the state after reset. -/

namespace Sys2Proof.Machine

/-- A list of key and value pairs. In canonical form the keys strictly rise; what an unlisted key stands for is said where
a field has this type. -/
abbrev Sparse (α : Type) := List (Nat × α)

/-- Bytes by address. An unlisted address has no value here (`State.byteAt` says what reading it gives). -/
abbrev Memory := List Host.Cell

/-- The annotation set of a memory operation (10_state.md R37, 20_memory.md R60). No instruction of the model gives an RCpc
annotation (R62); the two fields are there because the set has room for them (93_implementation_defined.md U10). -/
structure Annot where
  /-- acquire-RCpc -/
  acqRCpc : Bool
  /-- acquire-RCsc -/
  acqRCsc : Bool
  /-- release-RCpc -/
  relRCpc : Bool
  /-- release-RCsc -/
  relRCsc : Bool
  deriving DecidableEq, Repr

/-- The kind of a location (10_state.md R32). -/
inductive Region where
  /-- regular main memory -/
  | main
  /-- I/O region -/
  | io
  deriving DecidableEq, Repr

/-- A memory operation (10_state.md R37). -/
structure MemOp where
  /-- the hart that produced it -/
  hart : Nat
  /-- the position of its instruction in that hart's dynamic stream -/
  inst : Nat
  /-- it is a load operation -/
  isLoad : Bool
  /-- it is a store operation -/
  isStore : Bool
  /-- its bytes are `addr` to `addr + len - 1` -/
  addr : Nat
  /-- the number of its bytes -/
  len : Nat
  /-- for a load, the value returned for each byte, lowest address first; else empty -/
  loaded : List Byte
  /-- for a store, the value written to each byte, lowest address first; else empty -/
  stored : List Byte
  /-- its ordering annotations -/
  annot : Annot
  /-- main or io -/
  region : Region
  /-- its instruction is an AMO or SC -/
  fromAMOorSC : Bool
  /-- for the store of a successful SC: the position of the paired LR -/
  pairedWith : Option Nat
  deriving DecidableEq, Repr

/-- An instruction instance of a dynamic stream (20_memory.md R66): the instruction with its fields and, for an SC, whether
it succeeded (false for every other instruction). -/
structure Instance where
  /-- the instruction -/
  instr : Instr
  /-- for an SC, whether it succeeded -/
  scOk : Bool
  deriving DecidableEq, Repr

/-- The LR an SC would be paired with (20_memory.md R59), with what `SC_MISMATCH_MAY_SUCCEED` compares (R107). -/
structure LrRecord where
  /-- its position in the stream -/
  inst : Nat
  /-- its address -/
  addr : Nat
  /-- its width in bytes -/
  width : Nat
  deriving DecidableEq, Repr

/-- One hart (60_exceptions.md R409: what is per hart). -/
structure Hart where
  /-- its number (10_state.md R20) -/
  id : Nat
  /-- the address of its next instruction (10_state.md R23) -/
  pc : Word
  /-- x0 to x31 (10_state.md R21); x0 is read as zero whatever stands here -/
  x : Vector Word 32
  /-- f0 to f31 (10_state.md R24) -/
  f : Vector Word 32
  /-- frm, that is fcsr[7:5] (10_state.md R29, R30) -/
  frm : BitVec 3
  /-- fflags, that is fcsr[4:0] (10_state.md R28, R30) -/
  fflags : BitVec 5
  /-- ENTRY(h) (70_reset_and_hazards.md R431) -/
  entry : Nat
  /-- how many 32-bit words its program has (70_reset_and_hazards.md R431) -/
  len : Nat
  /-- its stream has ended (60_exceptions.md R409, R412) -/
  ended : Bool
  /-- the position its next instruction will have (10_state.md R35) -/
  pos : Nat
  /-- its dynamic stream so far, newest first (20_memory.md R66) -/
  stream : List Instance
  /-- the pairing state (20_memory.md R59) -/
  lr : Option LrRecord
  /-- `dep[u]` of 20_memory.md R78 by the key of the unit u: positions in rising order; an unlisted unit has the empty set -/
  deps : Sparse (List Nat)
  /-- the set `ctrl` of 20_memory.md R78: positions in rising order -/
  ctrl : List Nat
  deriving DecidableEq, Repr

/-- MODEL'S OWN. What the environment answers where the spec says "a draw"; when a list is used up, the free value
of `Config` at `count` is taken and `count` advances. -/
structure Draws where
  /-- bytes of loads (20_memory.md R98) -/
  bytes : List Byte
  /-- outcomes of SCs (20_memory.md R107) -/
  scs : List Bool
  /-- partitions of decomposed accesses (20_memory.md R57, R58) -/
  splits : List (BitVec 7)
  /-- how many free values have been taken -/
  count : Nat
  deriving DecidableEq, Repr

/-- The state of the machine (10_state.md R35, 92_eei_decisions.md D22). -/
structure State where
  /-- the parameters of the run, which no step changes -/
  params : Params
  /-- the bytes stores have written so far; reading an unlisted byte gives INIT_MEM -/
  mem : Memory
  /-- every memory operation performed so far, newest first (10_state.md R35) -/
  history : List MemOp
  /-- the addresses some hart has fetched an instruction byte from, in rising order (20_memory.md R108) -/
  fetched : List Nat
  /-- MODEL'S OWN. the hart whose turn it is -/
  hart : Hart
  /-- MODEL'S OWN. the other harts, next first -/
  others : List Hart
  /-- MODEL'S OWN. the draws -/
  draws : Draws
  deriving DecidableEq, Repr

/-- Why a run stops with a fault: the conditions of 60_exceptions.md R401 that 93_implementation_defined.md treats as
`fault`, that is the run is refused when the behaviour is reached. All are safe: the model stops where hardware goes on. -/
inductive Fault where
  /-- R401 condition 1: the 32-bit word at pc is no row of the table for this XLEN and EXT, or no instruction byte is there.
  Raised by `step`. Safe. -/
  | noInstruction
  /-- R401 condition 2: `rm` is 101 or 110, or it is 111 while frm holds 101, 110 or 111. Raised by the floating-point rows
  with an `rm` field. Safe. -/
  | reservedRounding
  /-- R401 condition 3: the CSR is none of fflags, frm and fcsr. Raised by the six CSR instructions. Safe. -/
  | csrNotHeld
  /-- R401 condition 9: an operation would run past the top of the address space. Raised by loads, stores, LR, SC and AMOs.
  Safe. -/
  | pastTop
  /-- R401 condition 10: a store writes a byte that some hart has fetched, or a fetch reaches a byte a store has written.
  Raised by stores, SC and AMOs, and by `step`. Safe. -/
  | storeToText
  deriving DecidableEq, Repr

/-- Why the model gives an instruction no meaning: the conditions of 60_exceptions.md R401 that 93_implementation_defined.md
treats as `refuse`. All are safe. -/
inductive Refusal where
  /-- An instruction whose meaning is not written yet. Raised by `exec` alone. Safe. -/
  | notModelled (mnemonic : String)
  /-- R401 condition 1 and 30_encoding.md R147: a 16-bit instruction is at pc. Raised by `step`. Safe. -/
  | compressed
  /-- R401 condition 7: a misaligned LR, SC or AMO. Safe. -/
  | misalignedAtomic
  /-- R401 condition 8: a misaligned load or store with MISALIGNED = refuse. Safe. -/
  | misalignedAccess
  /-- R401 condition 9: an operation touches an io byte. Raised by loads, stores, LR, SC and AMOs. Safe. -/
  | ioRegion
  /-- R401 condition 11: a jump or taken branch to an address that is no multiple of 4 without compressed instructions.
  Safe. -/
  | targetMisaligned
  deriving DecidableEq, Repr

/-- What a meaning or a step answers. -/
abbrev Result := Host.Outcome State Fault Refusal

/-- A hart at the start of a run (10_state.md R36, 70_reset_and_hazards.md R431): pc at ENTRY(h), nothing performed. DESIGN
CHOICE (log 1): every register and CSR holds zero. -/
def Hart.start (id entry len : Nat) : Hart :=
  { id := id, pc := BitVec.ofNat 64 entry,
    x := Vector.replicate 32 0, f := Vector.replicate 32 0, frm := 0, fflags := 0,
    entry := entry, len := len, ended := false, pos := 0, stream := [], lr := none, deps := [], ctrl := [] }

/-- The parameters at reset. DESIGN CHOICE (log 2) where 00_scope.md R7 leaves them an argument: RV64 with every group, the
spec's default for SC_MISMATCH_MAY_SUCCEED, `decompose`, no io byte, no byte of INIT_MEM listed. -/
def Params.reset : Params :=
  { xlen := .rv64, ext := .all, misaligned := .decompose, scMismatchMaySucceed := true, io := [], init := [] }

/-- The machine right after reset (10_state.md R36): one hart with no program placed (log 3), memory as INIT_MEM, history
empty, no LR outstanding. -/
def State.reset : State :=
  { params := Params.reset, mem := [], history := [], fetched := [],
    hart := Hart.start 0 0 0, others := [],
    draws := { bytes := [], scs := [], splits := [], count := 0 } }

end Sys2Proof.Machine
end

