-- ==== Sys2Proof/Machine/Memory.lean ====
section
/-! DEFINITION. Lists of key and value pairs in canonical form, sets of numbers as rising lists, and the memory operations
over them. -/

namespace Sys2Proof.Machine

/-- The keys strictly rise. -/
abbrev Sparse.wf {α : Type} (m : Sparse α) : Prop := m.Pairwise (fun a b => a.1 < b.1)

/-- The value of a key, if listed. -/
def Sparse.get? {α : Type} : Sparse α → Nat → Option α
  | [], _ => none
  | (k, v) :: m, a => if k = a then some v else Sparse.get? m a

/-- Lists a value for a key, in place of the one it had. -/
def Sparse.put {α : Type} : Sparse α → Nat → α → Sparse α
  | [], a, v => [(a, v)]
  | (k, w) :: m, a, v =>
    if a < k then (a, v) :: (k, w) :: m
    else if a = k then (a, v) :: m
    else (k, w) :: Sparse.put m a v

/-- Unlists a key. -/
def Sparse.del {α : Type} : Sparse α → Nat → Sparse α
  | [], _ => []
  | (k, w) :: m, a => if k = a then m else (k, w) :: Sparse.del m a

/-- The set with n in it, as a rising list. -/
def insertNat (n : Nat) : List Nat → List Nat
  | [] => [n]
  | m :: l => if n < m then n :: m :: l else if n = m then m :: l else m :: insertNat n l

/-- The union of two sets, as a rising list. -/
def unionNat (a b : List Nat) : List Nat := a.foldr insertNat b

/-- The canonical form of memory: addresses strictly rising. An unlisted address has no value written, so no entry equals
what an unlisted address holds. -/
abbrev Memory.wf (m : Memory) : Prop := Sparse.wf (α := Byte) m

/-- The byte a store has written at an address, if any. -/
def Memory.at? (m : Memory) (a : Nat) : Option Byte := Sparse.get? (α := Byte) m a

/-- Memory with bytes written from an address on, lowest first. -/
def Memory.write : Memory → Nat → List Byte → Memory
  | m, _, [] => m
  | m, a, b :: bs => Memory.write (Sparse.put (α := Byte) m a b) (a + 1) bs

/-- Memory with no byte written at n addresses from a on. -/
def Memory.forget : Memory → (a n : Nat) → Memory
  | m, _, 0 => m
  | m, a, n + 1 => Memory.forget (Sparse.del (α := Byte) m a) (a + 1) n

/-- INIT_MEM (10_state.md R36, 92_eei_decisions.md D1): what the run lists, and the free value `Config.initByte` for the
rest. -/
def initByteOf (p : Params) (a : Nat) : Byte :=
  match Sparse.get? (α := Byte) p.init a with
  | some b => b
  | none => Config.initByte a

/-- What reading one byte of main memory gives, in the view that all stores so far are done: the last byte written there,
or INIT_MEM (20_memory.md R114). -/
def State.byteAt (s : State) (a : Nat) : Byte :=
  match s.mem.at? a with
  | some b => b
  | none => initByteOf s.params a

/-- The n bytes from an address on. -/
def State.bytesAt (s : State) (a : Nat) : (n : Nat) → List Byte
  | 0 => []
  | n + 1 => s.byteAt a :: s.bytesAt (a + 1) n

/-- REGION (10_state.md R32). -/
def regionOf (p : Params) (a : Nat) : Region :=
  if p.io.any (fun r => decide (r.1 ≤ a ∧ a < r.1 + r.2)) then .io else .main

/-- Whether one of the n bytes from a on is io. -/
def touchesIo (p : Params) (a n : Nat) : Bool := (List.range n).any (fun k => regionOf p (a + k) = .io)

end Sys2Proof.Machine
end

