-- ==== Sys2Proof/Machine/Deps.lean ====
section
/-! DEFINITION. The listings of the source's §1.3: for every instruction its source, destination and accumulating
registers and what it carries (20_memory.md R68 to R72, R77, R79), and the dependency walk (R78). -/

namespace Sys2Proof.Machine

/-- A unit through which dependencies are traced (10_state.md R25). -/
inductive DepUnit where
  /-- X(n); the listings never name X(0) -/
  | x (r : Reg)
  /-- F(n) -/
  | f (r : Reg)
  /-- FRM, bits 7-5 of fcsr (10_state.md R29, R30) -/
  | frm
  /-- FFLAG(k), bit k of fflags and fcsr (10_state.md R28) -/
  | flag (k : Fin 5)
  /-- any other CSR that is not read-only, as one unit (10_state.md R31) -/
  | csr (a : BitVec 12)
  deriving DecidableEq, Repr

/-- A number for each unit, under which the walk keeps its set. -/
def DepUnit.key : DepUnit → Nat
  | .x r => r.toNat
  | .f r => 32 + r.toNat
  | .frm => 64
  | .flag k => 65 + k.val
  | .csr a => 70 + a.toNat

/-- The units of an integer register field: none for x0 (10_state.md R25). -/
def xUnits (r : Reg) : List DepUnit := if r = 0 then [] else [.x r]

/-- The units of a floating-point register field (10_state.md R24, R25). -/
def fUnits (r : Reg) : List DepUnit := [.f r]

/-- FFLAG(0) to FFLAG(4). -/
def flagUnits : List DepUnit := [.flag 0, .flag 1, .flag 2, .flag 3, .flag 4]

/-- The units of a CSR (10_state.md R25, R27, R31): a read-only CSR, address bits 11:10 = 11, has none. -/
def csrUnits (a : BitVec 12) : List DepUnit :=
  if a = 0x001 then flagUnits
  else if a = 0x002 then [.frm]
  else if a = 0x003 then .frm :: flagUnits
  else if a.extractLsb' 10 2 = 3 then []
  else [.csr a]

/-- `frm*`: the implicit source FRM, when `rm` = 111 (20_memory.md R68 clause 3). -/
def frmUnits (rm : BitVec 3) : List DepUnit := if rm = 7 then [.frm] else []

/-- What the mark of a row says it carries (20_memory.md R72). -/
inductive Mark where
  /-- no mark: sources to destinations and to accumulating CSRs, each accumulating CSR to itself -/
  | plain
  /-- †: nothing -/
  | dagger
  /-- ‡: from each of the first units to each of the second, for each pair of lists -/
  | note (l : List (List DepUnit × List DepUnit))
  deriving DecidableEq, Repr

/-- The part an instruction plays in pairing (20_memory.md R59). -/
inductive PairRole where
  /-- neither LR nor SC -/
  | none
  /-- LR.W or LR.D -/
  | lr
  /-- SC.W or SC.D -/
  | sc
  deriving DecidableEq, Repr

/-- One row of the listings, for one instruction instance. -/
structure Listing where
  /-- "Source Registers" marked A: address source registers (20_memory.md R69) -/
  addr : List DepUnit
  /-- "Source Registers" marked D: data source registers (20_memory.md R69) -/
  data : List DepUnit
  /-- the other entries of "Source Registers" -/
  plain : List DepUnit
  /-- "Destination Registers" -/
  dests : List DepUnit
  /-- "Accumulating CSRs" -/
  acc : List DepUnit
  /-- the mark -/
  mark : Mark
  /-- it is a branch or indirect jump (20_memory.md R79) -/
  control : Bool
  /-- it gives rise to a memory operation -/
  memory : Bool
  /-- its part in pairing -/
  role : PairRole
  deriving DecidableEq, Repr

/-- The "Source Registers" cell. -/
def Listing.cell (l : Listing) : List DepUnit := l.addr ++ l.data ++ l.plain

/-- The source registers (20_memory.md R68): the cell and the accumulating CSRs. -/
def Listing.sources (l : Listing) : List DepUnit := l.cell ++ l.acc

/-- The destination registers (20_memory.md R70): the cell and the accumulating CSRs. -/
def Listing.destinations (l : Listing) : List DepUnit := l.dests ++ l.acc

/-- The units p that are carried into q: `carries(i, p, q)` of 20_memory.md R72. -/
def Listing.carriers (l : Listing) (q : DepUnit) : List DepUnit :=
  match l.mark with
  | .plain => (if q ∈ l.dests ∨ q ∈ l.acc then l.cell else []) ++ (if q ∈ l.acc then [q] else [])
  | .dagger => []
  | .note ps => ps.flatMap (fun p => if q ∈ p.2 then p.1 else [])

/-- A row with no cell filled. -/
def Listing.empty : Listing :=
  { addr := [], data := [], plain := [], dests := [], acc := [], mark := .plain, control := false, memory := false,
    role := .none }

/-- A computational row: sources to destinations, with accumulating flags. -/
def Listing.compute (srcs dests acc : List DepUnit) : Listing :=
  { Listing.empty with plain := srcs, dests := dests, acc := acc }

/-- A load row †: `rs1` A to a destination. -/
def Listing.load (rs1 : Reg) (dests : List DepUnit) : Listing :=
  { Listing.empty with addr := xUnits rs1, dests := dests, mark := .dagger, memory := true }

/-- A store row: `rs1` A, `rs2` D. -/
def Listing.store (rs1 : Reg) (data : List DepUnit) : Listing :=
  { Listing.empty with addr := xUnits rs1, data := data, memory := true }

/-- A branch row. -/
def Listing.branch (rs1 rs2 : Reg) : Listing :=
  { Listing.empty with plain := xUnits rs1 ++ xUnits rs2, control := true }

/-- An AMO row †: `rs1` A, `rs2` D, `rd`. -/
def Listing.amo (rd rs2 rs1 : Reg) : Listing :=
  { Listing.empty with addr := xUnits rs1, data := xUnits rs2, dests := xUnits rd, mark := .dagger, memory := true }

/-- An LR row †. -/
def Listing.lr (rd rs1 : Reg) : Listing := { Listing.load rs1 (xUnits rd) with role := .lr }

/-- An SC row †: `rd` is a destination, and an operation arises, only if successful (20_memory.md R56, R77). -/
def Listing.sc (ok : Bool) (rd rs2 rs1 : Reg) : Listing :=
  { Listing.empty with addr := xUnits rs1, data := xUnits rs2, dests := if ok then xUnits rd else [], mark := .dagger,
                       memory := ok, role := .sc }

/-- CSRRW, CSRRS, CSRRC ‡: `rs1` to `csr` and `csr` to `rd` (40_rv32i.md R241 to R243). `read` says that csr is a source,
`write` that it is a destination. -/
def Listing.csrReg (rd rs1 : Reg) (csr : BitVec 12) (read write : Bool) : Listing :=
  { Listing.empty with
    plain := xUnits rs1 ++ (if read then csrUnits csr else [])
    dests := xUnits rd ++ (if write then csrUnits csr else [])
    mark := .note [(xUnits rs1, if write then csrUnits csr else []), (if read then csrUnits csr else [], xUnits rd)] }

/-- CSRRWI, CSRRSI, CSRRCI ‡: `csr` to `rd` (40_rv32i.md R244 to R246). -/
def Listing.csrImm (rd : Reg) (csr : BitVec 12) (read write : Bool) : Listing :=
  { Listing.empty with
    plain := if read then csrUnits csr else []
    dests := xUnits rd ++ (if write then csrUnits csr else [])
    mark := .note [(if read then csrUnits csr else [], xUnits rd)] }

/-- The flags a row accumulates, as a mask over NV DZ OF UF NX. -/
abbrev FlagMask := BitVec 5

/-- NV, OF, NX: FADD and FSUB (44_f.md R326, R327). -/
def accSum : FlagMask := 0b10101
/-- NV, OF, UF, NX: FMUL, the fused rows and FCVT.S.D (44_f.md R322, R328; 45_d.md R376). -/
def accMul : FlagMask := 0b10111
/-- NV, DZ, OF, UF, NX: FDIV (44_f.md R329). -/
def accDiv : FlagMask := 0b11111
/-- NV, NX: FSQRT and conversions to an integer (44_f.md R330, R336). -/
def accInt : FlagMask := 0b10001
/-- NV: FMIN, FMAX, comparisons and FCVT.D.S (44_f.md R334, R339; 45_d.md R377). -/
def accNv : FlagMask := 0b10000
/-- NX: conversions from an integer that may be inexact (44_f.md R343; 45_d.md R389). -/
def accNx : FlagMask := 0b00001

/-- The units of a flag mask. -/
def accUnits (m : FlagMask) : List DepUnit :=
  flagUnits.filter (fun u => match u with | .flag k => m.getLsbD k.val | _ => false)

/-- The row of the listings for an instruction (files 40 to 45, "Source row" and "Dependency units"); `ok` says whether an
SC succeeded. -/
def Instr.listing (ok : Bool) (i : Instr) : Listing :=
  match i with
  | .lui rd _ | .auipc rd _ | .jal rd _ => .compute [] (xUnits rd) []
  | .jalr rd rs1 _ =>
    { Listing.empty with plain := xUnits rs1, dests := xUnits rd, mark := .dagger, control := true }
  | .beq rs1 rs2 _ | .bne rs1 rs2 _ | .blt rs1 rs2 _ | .bge rs1 rs2 _ | .bltu rs1 rs2 _ | .bgeu rs1 rs2 _ =>
    .branch rs1 rs2
  | .lb rd rs1 _ | .lh rd rs1 _ | .lw rd rs1 _ | .lbu rd rs1 _ | .lhu rd rs1 _ | .lwu rd rs1 _ | .ld rd rs1 _ =>
    .load rs1 (xUnits rd)
  | .sb rs2 rs1 _ | .sh rs2 rs1 _ | .sw rs2 rs1 _ | .sd rs2 rs1 _ => .store rs1 (xUnits rs2)
  | .addi rd rs1 _ | .slti rd rs1 _ | .sltiu rd rs1 _ | .xori rd rs1 _ | .ori rd rs1 _ | .andi rd rs1 _
  | .slli32 rd rs1 _ | .srli32 rd rs1 _ | .srai32 rd rs1 _ | .slli rd rs1 _ | .srli rd rs1 _ | .srai rd rs1 _
  | .addiw rd rs1 _ | .slliw rd rs1 _ | .srliw rd rs1 _ | .sraiw rd rs1 _ => .compute (xUnits rs1) (xUnits rd) []
  | .add rd rs1 rs2 | .sub rd rs1 rs2 | .sll rd rs1 rs2 | .slt rd rs1 rs2 | .sltu rd rs1 rs2 | .xor rd rs1 rs2
  | .srl rd rs1 rs2 | .sra rd rs1 rs2 | .or rd rs1 rs2 | .and rd rs1 rs2
  | .addw rd rs1 rs2 | .subw rd rs1 rs2 | .sllw rd rs1 rs2 | .srlw rd rs1 rs2 | .sraw rd rs1 rs2
  | .mul rd rs1 rs2 | .mulh rd rs1 rs2 | .mulhsu rd rs1 rs2 | .mulhu rd rs1 rs2 | .div rd rs1 rs2 | .divu rd rs1 rs2
  | .rem rd rs1 rs2 | .remu rd rs1 rs2 | .mulw rd rs1 rs2 | .divw rd rs1 rs2 | .divuw rd rs1 rs2 | .remw rd rs1 rs2
  | .remuw rd rs1 rs2 => .compute (xUnits rs1 ++ xUnits rs2) (xUnits rd) []
  | .fence _ _ _ _ _ | .fenceI _ _ _ | .ecall | .ebreak => .empty
  | .csrrw rd csr rs1 => .csrReg rd rs1 csr (rd ≠ 0) true
  | .csrrs rd csr rs1 | .csrrc rd csr rs1 => .csrReg rd rs1 csr true (rs1 ≠ 0)
  | .csrrwi rd csr _ => .csrImm rd csr (rd ≠ 0) true
  | .csrrsi rd csr uimm | .csrrci rd csr uimm => .csrImm rd csr true (uimm ≠ 0)
  | .lrW rd rs1 _ _ | .lrD rd rs1 _ _ => .lr rd rs1
  | .scW rd rs2 rs1 _ _ | .scD rd rs2 rs1 _ _ => .sc ok rd rs2 rs1
  | .amoswapW rd rs2 rs1 _ _ | .amoaddW rd rs2 rs1 _ _ | .amoxorW rd rs2 rs1 _ _ | .amoandW rd rs2 rs1 _ _
  | .amoorW rd rs2 rs1 _ _ | .amominW rd rs2 rs1 _ _ | .amomaxW rd rs2 rs1 _ _ | .amominuW rd rs2 rs1 _ _
  | .amomaxuW rd rs2 rs1 _ _ | .amoswapD rd rs2 rs1 _ _ | .amoaddD rd rs2 rs1 _ _ | .amoxorD rd rs2 rs1 _ _
  | .amoandD rd rs2 rs1 _ _ | .amoorD rd rs2 rs1 _ _ | .amominD rd rs2 rs1 _ _ | .amomaxD rd rs2 rs1 _ _
  | .amominuD rd rs2 rs1 _ _ | .amomaxuD rd rs2 rs1 _ _ => .amo rd rs2 rs1
  | .flw rd rs1 _ | .fld rd rs1 _ => .load rs1 (fUnits rd)
  | .fsw rs2 rs1 _ | .fsd rs2 rs1 _ => .store rs1 (fUnits rs2)
  | .fmaddS rd rs1 rs2 rs3 rm | .fmsubS rd rs1 rs2 rs3 rm | .fnmsubS rd rs1 rs2 rs3 rm | .fnmaddS rd rs1 rs2 rs3 rm
  | .fmaddD rd rs1 rs2 rs3 rm | .fmsubD rd rs1 rs2 rs3 rm | .fnmsubD rd rs1 rs2 rs3 rm | .fnmaddD rd rs1 rs2 rs3 rm =>
    .compute (fUnits rs1 ++ fUnits rs2 ++ fUnits rs3 ++ frmUnits rm) (fUnits rd) (accUnits accMul)
  | .faddS rd rs1 rs2 rm | .fsubS rd rs1 rs2 rm | .faddD rd rs1 rs2 rm | .fsubD rd rs1 rs2 rm =>
    .compute (fUnits rs1 ++ fUnits rs2 ++ frmUnits rm) (fUnits rd) (accUnits accSum)
  | .fmulS rd rs1 rs2 rm | .fmulD rd rs1 rs2 rm =>
    .compute (fUnits rs1 ++ fUnits rs2 ++ frmUnits rm) (fUnits rd) (accUnits accMul)
  | .fdivS rd rs1 rs2 rm | .fdivD rd rs1 rs2 rm =>
    .compute (fUnits rs1 ++ fUnits rs2 ++ frmUnits rm) (fUnits rd) (accUnits accDiv)
  | .fsqrtS rd rs1 rm | .fsqrtD rd rs1 rm => .compute (fUnits rs1 ++ frmUnits rm) (fUnits rd) (accUnits accInt)
  | .fsgnjS rd rs1 rs2 | .fsgnjnS rd rs1 rs2 | .fsgnjxS rd rs1 rs2
  | .fsgnjD rd rs1 rs2 | .fsgnjnD rd rs1 rs2 | .fsgnjxD rd rs1 rs2 =>
    .compute (fUnits rs1 ++ fUnits rs2) (fUnits rd) []
  | .fminS rd rs1 rs2 | .fmaxS rd rs1 rs2 | .fminD rd rs1 rs2 | .fmaxD rd rs1 rs2 =>
    .compute (fUnits rs1 ++ fUnits rs2) (fUnits rd) (accUnits accNv)
  | .fcvtWS rd rs1 rm | .fcvtWUS rd rs1 rm | .fcvtLS rd rs1 rm | .fcvtLUS rd rs1 rm
  | .fcvtWD rd rs1 rm | .fcvtWUD rd rs1 rm | .fcvtLD rd rs1 rm | .fcvtLUD rd rs1 rm =>
    .compute (fUnits rs1 ++ frmUnits rm) (xUnits rd) (accUnits accInt)
  | .fmvXW rd rs1 | .fmvXD rd rs1 | .fclassS rd rs1 | .fclassD rd rs1 => .compute (fUnits rs1) (xUnits rd) []
  | .feqS rd rs1 rs2 | .fltS rd rs1 rs2 | .fleS rd rs1 rs2 | .feqD rd rs1 rs2 | .fltD rd rs1 rs2 | .fleD rd rs1 rs2 =>
    .compute (fUnits rs1 ++ fUnits rs2) (xUnits rd) (accUnits accNv)
  | .fcvtSW rd rs1 rm | .fcvtSWU rd rs1 rm | .fcvtSL rd rs1 rm | .fcvtSLU rd rs1 rm | .fcvtDL rd rs1 rm
  | .fcvtDLU rd rs1 rm => .compute (xUnits rs1 ++ frmUnits rm) (fUnits rd) (accUnits accNx)
  | .fmvWX rd rs1 | .fmvDX rd rs1 => .compute (xUnits rs1) (fUnits rd) []
  | .fcvtSD rd rs1 rm => .compute (fUnits rs1 ++ frmUnits rm) (fUnits rd) (accUnits accMul)
  | .fcvtDS rd rs1 _ => .compute (fUnits rs1) (fUnits rd) (accUnits accNv)
  | .fcvtDW rd rs1 _ | .fcvtDWU rd rs1 _ => .compute (xUnits rs1) (fUnits rd) []

/-- The listing row of an instruction instance. -/
def Instance.listing (n : Instance) : Listing := Instr.listing n.scOk n.instr

/-- The dependency bookkeeping of one hart (20_memory.md R78). -/
structure DepState where
  /-- `dep[u]`, by the key of u; unlisted is the empty set -/
  deps : Sparse (List Nat)
  /-- `ctrl` -/
  ctrl : List Nat
  deriving DecidableEq, Repr

/-- Before the first instruction. -/
def DepState.start : DepState := { deps := [], ctrl := [] }

/-- `dep[u]`. -/
def DepState.of (d : DepState) (u : DepUnit) : List Nat :=
  match Sparse.get? d.deps u.key with
  | some l => l
  | none => []

/-- The union of `dep[u]` over some units. -/
def DepState.ofAll (d : DepState) (us : List DepUnit) : List Nat := us.foldr (fun u l => unionNat (d.of u) l) []

/-- A map with `dep[u]` replaced; the empty set is unlisted. -/
def setDep (m : Sparse (List Nat)) (u : DepUnit) (l : List Nat) : Sparse (List Nat) :=
  if l = [] then Sparse.del m u.key else Sparse.put m u.key l

/-- The set step (b) of 20_memory.md R78 gives a destination unit q of the instruction at position j. -/
def DepState.after (d : DepState) (l : Listing) (j : Nat) (q : DepUnit) : List Nat :=
  if l.memory then insertNat j (d.ofAll (l.carriers q)) else d.ofAll (l.carriers q)

/-- One instruction of the walk (20_memory.md R78): a branch or indirect jump adds what its sources depend on to `ctrl`;
every destination unit takes what is carried into it and, if the instruction gives rise to a memory operation, the
instruction itself. -/
def DepState.walk (d : DepState) (l : Listing) (j : Nat) : DepState :=
  { deps := l.destinations.foldl (fun m q => setDep m q (d.after l j q)) d.deps
    ctrl := if l.control then unionNat (d.ofAll l.sources) d.ctrl else d.ctrl }

/-- The walk over a stream given newest first. -/
def walkAll : List Instance → DepState
  | [] => .start
  | n :: older => (walkAll older).walk n.listing older.length

end Sys2Proof.Machine
end

