-- ==== Sys2Proof/Machine/Width.lean ====
section
/-! DEFINITION. Values of width XLEN in their 64-bit container, sign extension, and the byte order of values
(00_scope.md R8, 20_memory.md R100). -/

namespace Sys2Proof

/-- The number of addresses, 2^XLEN (10_state.md R32). -/
def Xlen.size (x : Xlen) : Nat := 2 ^ x.bits

/-- The value modulo 2^XLEN, in its container. -/
def Xlen.trunc : Xlen → Word → Word
  | .rv32, w => (w.setWidth 32).setWidth 64
  | .rv64, w => w

/-- `sext_XLEN` of a field (00_scope.md R8), in its container. -/
def Xlen.sext {n : Nat} (x : Xlen) (v : BitVec n) : Word := x.trunc (v.signExtend 64)

/-- A binary operation on XLEN-bit values, given at every width, on containers. -/
def Xlen.bin (x : Xlen) (f : (n : Nat) → BitVec n → BitVec n → BitVec n) (a b : Word) : Word :=
  match x with
  | .rv32 => (f 32 (a.setWidth 32) (b.setWidth 32)).setWidth 64
  | .rv64 => f 64 a b

/-- A test on two XLEN-bit values, given at every width, on containers. -/
def Xlen.test (x : Xlen) (f : (n : Nat) → BitVec n → BitVec n → Bool) (a b : Word) : Bool :=
  match x with
  | .rv32 => f 32 (a.setWidth 32) (b.setWidth 32)
  | .rv64 => f 64 a b

namespace Machine

/-- `zext_XLEN` of a truth value: 1 or 0 in the full register width (40_rv32i.md R219). -/
def boolWord (b : Bool) : Word := if b then 1 else 0

/-- A 32-bit operation whose result is sign-extended to 64 bits: the `...W` instructions (41_rv64i.md R260). -/
def wordOp (f : BitVec 32 → BitVec 32 → BitVec 32) (a b : Word) : Word :=
  (f (a.setWidth 32) (b.setWidth 32)).signExtend 64

/-- The n low bytes of a value, lowest first: bits 8k+7..8k go to address + k (20_memory.md R100). -/
def bytesOf : (n : Nat) → Word → List Byte
  | 0, _ => []
  | n + 1, w => w.setWidth 8 :: bytesOf n (w >>> 8)

/-- The value whose bytes these are, lowest first (20_memory.md R100). -/
def wordOf : List Byte → Word
  | [] => 0
  | b :: bs => b.setWidth 64 ||| (wordOf bs <<< 8)

/-- `sext_XLEN` of a value of n bytes. -/
def signExtendBytes (x : Xlen) (n : Nat) (w : Word) : Word := x.sext (w.setWidth (8 * n))

/-- Where an access of n bytes that is decomposed is cut (20_memory.md R58): the (offset, length) of each component, lowest
first. Bit k of the mask says that a component ends between byte k and byte k+1. The call `components mask (n - 1) 1 0` gives
the components of n bytes. DEDUCED (log 12): every component is a run of adjacent bytes. -/
def components (mask : BitVec 7) : (rest next start : Nat) → List (Nat × Nat)
  | 0, next, start => [(start, next - start)]
  | rest + 1, next, start =>
    if mask.getLsbD (next - 1) then (start, next - start) :: components mask rest (next + 1) next
    else components mask rest (next + 1) start

end Machine
end Sys2Proof
end

