-- ==== Sys2Proof/Machine/Ops.lean ====
section
/-! DEFINITION. The named operations over registers, memory, the draws and the stream that the meanings are written with.
The machine has no trap mechanism (60_exceptions.md R400): what stands here in its place is how a run stops (R401) and how a
hart's stream ends (R412). -/

namespace Sys2Proof.Machine

/-- XLEN. -/
def State.xlen (s : State) : Xlen := s.params.xlen

/-! ### Registers -/

/-- `pc`: XLEN bits (10_state.md R23). -/
def State.pc (s : State) : Word := s.xlen.trunc s.hart.pc

/-- `x[r]` (00_scope.md R9): x0 reads as zero; XLEN bits (10_state.md R21). -/
def State.readX (s : State) (r : Reg) : Word := if r = 0 then 0 else s.xlen.trunc (s.hart.x[r.toNat]'r.isLt)

/-- `x[r] <- v` (00_scope.md R9): a write to x0 is discarded. -/
def State.writeX (s : State) (r : Reg) (v : Word) : State :=
  if r = 0 then s else { s with hart := { s.hart with x := s.hart.x.set r.toNat (s.xlen.trunc v) r.isLt } }

/-- FLEN = 64: D is present (10_state.md R24). -/
def State.wideF (s : State) : Bool := s.params.ext.d

/-- A value modulo 2^FLEN. -/
def State.truncF (s : State) (v : Word) : Word := if s.wideF then v else (v.setWidth 32).setWidth 64

/-- `f[r]`: FLEN bits; f0 is an ordinary register (10_state.md R24). -/
def State.readF (s : State) (r : Reg) : Word := s.truncF (s.hart.f[r.toNat]'r.isLt)

/-- `f[r] <- v`. -/
def State.writeF (s : State) (r : Reg) (v : Word) : State :=
  { s with hart := { s.hart with f := s.hart.f.set r.toNat (s.truncF v) r.isLt } }

/-! ### Control and status registers (10_state.md R27 to R31) -/

/-- `csr[a]` zero-extended, if the model holds it: fflags 0x001, frm 0x002, fcsr 0x003 (60_exceptions.md R401 condition
3). -/
def State.readCsr (s : State) (a : BitVec 12) : Option Word :=
  if a = 0x001 then some (s.hart.fflags.setWidth 64)
  else if a = 0x002 then some (s.hart.frm.setWidth 64)
  else if a = 0x003 then some ((s.hart.frm ++ s.hart.fflags).setWidth 64)
  else none

/-- `csr[a] <- v`: frm is fcsr[7:5] and fflags is fcsr[4:0]; other bits written are dropped (10_state.md R28 to R30). -/
def State.writeCsr (s : State) (a : BitVec 12) (v : Word) : State :=
  if a = 0x001 then { s with hart := { s.hart with fflags := v.setWidth 5 } }
  else if a = 0x002 then { s with hart := { s.hart with frm := v.setWidth 3 } }
  else if a = 0x003 then { s with hart := { s.hart with frm := v.extractLsb' 5 3, fflags := v.setWidth 5 } }
  else s

/-! ### How a run stops -/

/-- A stop: one of the conditions of 60_exceptions.md R401. -/
inductive Stop where
  /-- with a fault -/
  | fault (f : Fault)
  /-- with a refusal -/
  | refused (r : Refusal)
  deriving DecidableEq, Repr

/-- What the machine answers at a stop. -/
def Stop.result : Stop → Result
  | .fault f => .fault f
  | .refused r => .refused r

/-- Goes on unless there is a stop. -/
def orStop (o : Option Stop) (k : Result) : Result :=
  match o with
  | some st => st.result
  | none => k

/-! ### The stream -/

/-- The hart after an instruction instance: the instance is the next of the stream, the dependency walk takes its step
(20_memory.md R78), pc is at `pc`. -/
def Hart.advance (h : Hart) (i : Instr) (ok : Bool) (pc : Word) : Hart :=
  let d := ({ deps := h.deps, ctrl := h.ctrl : DepState }).walk (Instr.listing ok i) h.pos
  { h with pc := pc, pos := h.pos + 1, stream := { instr := i, scOk := ok } :: h.stream,
           deps := d.deps, ctrl := d.ctrl }

/-- The address of the following instruction: pc + 4 modulo 2^XLEN (10_state.md R23). -/
def State.nextPc (s : State) : Word := s.xlen.trunc (s.pc + 4)

/-- The instruction is done and the next one is at an address. -/
def State.retireTo (s : State) (i : Instr) (pc : Word) : State := { s with hart := s.hart.advance i false pc }

/-- The instruction is done and the next one is at pc + 4 (00_scope.md R9). -/
def State.retire (s : State) (i : Instr) : State := s.retireTo i s.nextPc

/-- An SC is done, with its outcome. -/
def State.retireSc (s : State) (i : Instr) (ok : Bool) : State := { s with hart := s.hart.advance i ok s.nextPc }

/-- The instruction is done and is the last of its stream (60_exceptions.md R412); pc stays (log 10). -/
def State.retireLast (s : State) (i : Instr) : State :=
  { s with hart := { s.hart.advance i false s.hart.pc with ended := true } }

/-- The stream ends with no further instruction (60_exceptions.md R409, 92_eei_decisions.md D27). -/
def State.endStream (s : State) : State := { s with hart := { s.hart with ended := true } }

/-- 60_exceptions.md R401 condition 11 and 90_conflicts.md C7: without compressed instructions a target must be a multiple
of 4. -/
def State.targetStop (s : State) (t : Word) : Option Stop :=
  if s.params.ext.c = false ∧ t.toNat % 4 ≠ 0 then some (.refused .targetMisaligned) else none

/-! ### Draws -/

/-- One drawn byte (20_memory.md R98). -/
def Draws.byte (d : Draws) : Byte × Draws :=
  match d.bytes with
  | b :: bs => (b, { d with bytes := bs })
  | [] => (Config.drawnByte d.count, { d with count := d.count + 1 })

/-- n drawn bytes. -/
def Draws.takeBytes (d : Draws) : Nat → List Byte × Draws
  | 0 => ([], d)
  | n + 1 => (d.byte.1 :: (d.byte.2.takeBytes n).1, (d.byte.2.takeBytes n).2)

/-- SC_OUTCOME (20_memory.md R107). -/
def Draws.sc (d : Draws) : Bool × Draws :=
  match d.scs with
  | b :: bs => (b, { d with scs := bs })
  | [] => (Config.drawnSc d.count, { d with count := d.count + 1 })

/-- A partition (20_memory.md R57, R58). -/
def Draws.split (d : Draws) : BitVec 7 × Draws :=
  match d.splits with
  | b :: bs => (b, { d with splits := bs })
  | [] => (Config.drawnSplit d.count, { d with count := d.count + 1 })

/-! ### Annotations (20_memory.md R60) -/

/-- No annotation: plain loads and stores. -/
def Annot.none : Annot := { acqRCpc := false, acqRCsc := false, relRCpc := false, relRCsc := false }
/-- An AMO: aq gives acquire-RCsc, rl gives release-RCsc. -/
def Annot.amo (aq rl : Bool) : Annot := { Annot.none with acqRCsc := aq, relRCsc := rl }
/-- An LR: aq gives acquire-RCsc, aq and rl together both, rl alone nothing (92_eei_decisions.md D24). -/
def Annot.lr (aq rl : Bool) : Annot := { Annot.none with acqRCsc := aq, relRCsc := aq && rl }
/-- An SC: rl gives release-RCsc, aq and rl together both, aq alone nothing (92_eei_decisions.md D24). -/
def Annot.sc (aq rl : Bool) : Annot := { Annot.none with acqRCsc := aq && rl, relRCsc := rl }

/-! ### Memory accesses -/

/-- An access of n bytes at a is aligned (20_memory.md R101). -/
def aligned (a n : Nat) : Bool := a % n = 0

/-- Conditions 9 of 60_exceptions.md R401: an io byte, or past the top of the address space (20_memory.md R104). -/
def State.regionStop (s : State) (a n : Nat) : Option Stop :=
  if touchesIo s.params a n then some (.refused .ioRegion)
  else if s.xlen.size < a + n then some (.fault .pastTop)
  else none

/-- Condition 10 of 60_exceptions.md R401: a store to a byte some hart has fetched (20_memory.md R108). -/
def State.textStop (s : State) (a n : Nat) : Option Stop :=
  if s.fetched.any (fun b => decide (a ≤ b ∧ b < a + n)) then some (.fault .storeToText) else none

/-- Condition 8 of 60_exceptions.md R401. DESIGN CHOICE (log 24): with MISALIGNED = refuse it stops a misaligned FLD or FSD on
RV32 too, as R401 and 20_memory.md R101 say of every load and store, although 93_implementation_defined.md U2 leaves their
partition a draw whatever the value of MISALIGNED. -/
def State.alignStop (s : State) (a n : Nat) : Option Stop :=
  if s.params.misaligned = .refuse ∧ aligned a n = false then some (.refused .misalignedAccess) else none

/-- Condition 7 of 60_exceptions.md R401 (20_memory.md R63). -/
def atomicStop (a n : Nat) : Option Stop :=
  if aligned a n = false then some (.refused .misalignedAtomic) else none

/-- The first stop of two. -/
def firstStop (a b : Option Stop) : Option Stop :=
  match a with
  | some st => some st
  | none => b

/-- What stops a load, in the order of 60_exceptions.md R401. -/
def State.loadStop (s : State) (a n : Nat) : Option Stop := firstStop (s.alignStop a n) (s.regionStop a n)

/-- What stops a store. -/
def State.storeStop (s : State) (a n : Nat) : Option Stop :=
  firstStop (s.alignStop a n) (firstStop (s.regionStop a n) (s.textStop a n))

/-- What stops an LR. -/
def State.lrStop (s : State) (a n : Nat) : Option Stop := firstStop (atomicStop a n) (s.regionStop a n)

/-- What stops an AMO. -/
def State.amoStop (s : State) (a n : Nat) : Option Stop :=
  firstStop (atomicStop a n) (firstStop (s.regionStop a n) (s.textStop a n))

/-- Whether an access may be decomposed into component operations: it is misaligned (20_memory.md R58), or it is that of an
FLD or FSD with XLEN < 64 (R57). -/
def State.mayDecompose (s : State) (a n : Nat) (fpDouble : Bool) : Bool :=
  !aligned a n || (fpDouble && decide (s.xlen = .rv32))

/-- The components of an access: one operation (20_memory.md R55), or the drawn partition. -/
def State.parts (s : State) (a n : Nat) (fpDouble : Bool) : List (Nat × Nat) × Draws :=
  if s.mayDecompose a n fpDouble then (components s.draws.split.1 (n - 1) 1 0, s.draws.split.2)
  else ([(0, n)], s.draws)

/-- A load operation on part of an access whose bytes are given. -/
def State.loadOp (s : State) (a : Nat) (bytes : List Byte) (annot : Annot) (part : Nat × Nat) : MemOp :=
  { hart := s.hart.id, inst := s.hart.pos, isLoad := true, isStore := false, addr := a + part.1, len := part.2,
    loaded := (bytes.drop part.1).take part.2, stored := [], annot := annot, region := .main, fromAMOorSC := false,
    pairedWith := none }

/-- A store operation on part of an access whose bytes are given; `sc` is the position of the paired LR, for an SC. -/
def State.storeOp (s : State) (a : Nat) (bytes : List Byte) (annot : Annot) (sc : Option Nat) (part : Nat × Nat) :
    MemOp :=
  { hart := s.hart.id, inst := s.hart.pos, isLoad := false, isStore := true, addr := a + part.1, len := part.2,
    loaded := [], stored := (bytes.drop part.1).take part.2, annot := annot, region := .main,
    fromAMOorSC := sc.isSome, pairedWith := sc }

/-- The bytes a load of n bytes at a returns, and the draws left: any bytes (20_memory.md R98), which with one hart are
those of `byteAt` (20_memory.md R114; log 6). -/
def State.loaded (s : State) (a n : Nat) : List Byte × Draws :=
  if s.others = [] then (s.bytesAt a n, s.draws) else s.draws.takeBytes n

/-- `MemRead(a, n)` (00_scope.md R10): the bytes returned. -/
def State.memRead (s : State) (a n : Nat) : List Byte := (s.loaded a n).1

/-- The state after `MemRead(a, n)`: its load operations are in the history. -/
def State.afterRead (s : State) (a n : Nat) (fpDouble : Bool) (annot : Annot) : State :=
  let p := { s with draws := (s.loaded a n).2 }.parts a n fpDouble
  { s with history := (p.1.map (s.loadOp a (s.memRead a n) annot)).reverse ++ s.history, draws := p.2 }

/-- `MemWrite(a, n, v)` (00_scope.md R10) with the bytes given: memory holds them, the store operations are in the
history. -/
def State.memWrite (s : State) (a : Nat) (bytes : List Byte) (fpDouble : Bool) (annot : Annot) (sc : Option Nat) :
    State :=
  let p := s.parts a bytes.length fpDouble
  { s with mem := s.mem.write a bytes
           history := (p.1.map (s.storeOp a bytes annot sc)).reverse ++ s.history
           draws := p.2 }

/-- `MemAMO(a, n, g)` (00_scope.md R10): one operation that is both a load and a store (20_memory.md R55), and the bytes
loaded are `s.memRead a n`. -/
def State.memAmo (s : State) (a n : Nat) (g : Word → Word) (annot : Annot) : State :=
  let old := s.memRead a n
  let new := bytesOf n (g (wordOf old))
  { s with mem := s.mem.write a new
           history := { hart := s.hart.id, inst := s.hart.pos, isLoad := true, isStore := true, addr := a, len := n,
                        loaded := old, stored := new, annot := annot, region := .main, fromAMOorSC := true,
                        pairedWith := none } :: s.history
           draws := (s.loaded a n).2 }

/-! ### Pairing (20_memory.md R59, R107) -/

/-- An LR at address a of width n is outstanding. -/
def State.setLr (s : State) (a n : Nat) : State :=
  { s with hart := { s.hart with lr := some { inst := s.hart.pos, addr := a, width := n } } }

/-- No LR is outstanding. -/
def State.clearLr (s : State) : State := { s with hart := { s.hart with lr := none } }

/-- Whether an SC to address a of width n may succeed: it is paired, and its address and width are those of the LR unless
SC_MISMATCH_MAY_SUCCEED (20_memory.md R107). -/
def State.scMay (s : State) (a n : Nat) : Bool :=
  match s.hart.lr with
  | none => false
  | some l => s.params.scMismatchMaySucceed || decide (l.addr = a ∧ l.width = n)

/-- Whether the SC succeeds: it may, and the draw says so. -/
def State.scSucceeds (s : State) (a n : Nat) : Bool := s.scMay a n && s.draws.sc.1

/-- The state with SC_OUTCOME drawn. -/
def State.drewSc (s : State) : State := { s with draws := s.draws.sc.2 }

/-! ### Turns -/

/-- The next hart of the ring has its turn (log 9). -/
def State.yield (s : State) : State :=
  match s.others with
  | [] => s
  | h :: hs => { s with hart := h, others := hs ++ [s.hart] }

end Sys2Proof.Machine
end

