-- ==== Sys2Proof/Machine/Flags.lean ====
section
/-! DEFINITION. The floating-point flags and the rounding mode (10_state.md R26 to R29, 30_encoding.md R139). There are no
integer flags (R26). -/

namespace Sys2Proof.Machine

/-- `fflags <- fflags | raised`: flags are OR-ed in and never cleared (10_state.md R28); a row accumulates the flags of its
cell only. -/
def State.accrue (s : State) (cell raised : FlagBits) : State :=
  { s with hart := { s.hart with fflags := s.hart.fflags ||| (raised &&& cell) } }

/-- The rounding mode a 3-bit code names: 101, 110 and 111 name none (10_state.md R29). -/
def RoundMode.ofCode (c : BitVec 3) : Option RoundMode :=
  if c = 0 then some .rne
  else if c = 1 then some .rtz
  else if c = 2 then some .rdn
  else if c = 3 then some .rup
  else if c = 4 then some .rmm
  else none

/-- The mode an `rm` field selects: 111 is dynamic, the mode is that of frm (30_encoding.md R139). -/
def State.rounding (s : State) (rm : BitVec 3) : Option RoundMode :=
  RoundMode.ofCode (if rm = 7 then s.hart.frm else rm)

/-- Goes on with the selected mode; a reserved one stops (60_exceptions.md R401 condition 2). -/
def State.withRounding (s : State) (rm : BitVec 3) (k : RoundMode → Result) : Result :=
  match s.rounding rm with
  | some r => k r
  | none => .fault .reservedRounding

end Sys2Proof.Machine
end

