-- ==== Sys2Proof/Machine/Operands.lean ====
section
/-! DEFINITION. The operand forms: immediates, shift amounts, addresses, and the floating-point operands with their boxing
(30_encoding.md R134, 44_f.md header). -/

namespace Sys2Proof.Machine

/-- An I or S immediate, or a branch or jump offset: sext_XLEN(imm) (30_encoding.md R134). -/
def State.imm {n : Nat} (s : State) (v : BitVec n) : Word := s.xlen.sext v

/-- A U immediate: sext_XLEN of {imm[31:12], 0x000} (30_encoding.md R134). -/
def State.immU (s : State) (v : BitVec 20) : Word := s.xlen.sext (v ++ (0 : BitVec 12))

/-- The address x[rs1] + sext_XLEN(imm), modulo 2^XLEN (40_rv32i.md R210). -/
def State.effAddr (s : State) (rs1 : Reg) (imm : BitVec 12) : Nat :=
  (s.xlen.trunc (s.readX rs1 + s.imm imm)).toNat

/-- The address x[rs1] of LR, SC and AMOs (30_encoding.md R134). -/
def State.atomicAddr (s : State) (rs1 : Reg) : Nat := (s.readX rs1).toNat

/-- pc + sext_XLEN(imm) modulo 2^XLEN: the target of JAL and of a taken branch (40_rv32i.md R202, R204). -/
def State.pcTarget {n : Nat} (s : State) (imm : BitVec n) : Word := s.xlen.trunc (s.pc + s.imm imm)

/-- (x[rs1] + sext_XLEN(imm)) & ~1: the target of JALR (40_rv32i.md R203). -/
def State.indirectTarget (s : State) (rs1 : Reg) (imm : BitVec 12) : Word :=
  s.xlen.trunc (s.readX rs1 + s.imm imm) &&& ~~~(1 : Word)

/-- A single-precision source operand: `unbox(f[r])`, the low 32 bits if FLEN = 32 or the high 32 are all ones, else the
canonical NaN (44_f.md header). -/
def State.readS (s : State) (r : Reg) : Nat :=
  let v := s.readF r
  if s.wideF then
    if v.extractLsb' 32 32 = BitVec.allOnes 32 then (v.setWidth 32).toNat else Fmt.single.canonicalNan
  else (v.setWidth 32).toNat

/-- `nanbox(v)` (44_f.md header): all ones above the 32 bits; with FLEN = 32 `writeF` drops them. -/
def nanbox (v : BitVec 32) : Word := BitVec.allOnes 32 ++ v

/-- `f[r] <- nanbox(v)` of a single-precision pattern. -/
def State.writeS (s : State) (r : Reg) (v : Nat) : State := s.writeF r (nanbox (BitVec.ofNat 32 v))

/-- A double-precision source operand: f[r] (45_d.md R366). -/
def State.readD (s : State) (r : Reg) : Nat := (s.readF r).toNat

/-- `f[r] <- v` of a double-precision pattern. -/
def State.writeD (s : State) (r : Reg) (v : Nat) : State := s.writeF r (BitVec.ofNat 64 v)

end Sys2Proof.Machine
end

