-- ==== Sys2Proof/Machine/Atomic.lean ====
section
/-! DEFINITION. Load-reserved, store-conditional and atomic memory operations (43_a.md R290 to R311). -/

namespace Sys2Proof.Machine

/-- LR of n bytes (43_a.md R290): `x[rd] <- sext_XLEN(MemRead(x[rs1], n))`; it is the LR of a pair when the next LR or SC of
the hart is an SC. -/
def State.loadReserved (s : State) (rd rs1 : Reg) (n : Nat) (annot : Annot) (i : Instr) : Result :=
  let a := s.atomicAddr rs1
  orStop (s.lrStop a n)
    (.next ((((s.afterRead a n false annot).setLr a n).writeX rd
      (signExtendBytes s.xlen n (wordOf (s.memRead a n)))).retire i))

/-- The successful SC of n bytes (43_a.md R291): the store, paired with its LR, and x[rd] <- 0. -/
def State.scSuccess (s : State) (rd rs2 rs1 : Reg) (n : Nat) (annot : Annot) (i : Instr) : State :=
  ((((s.drewSc.memWrite (s.atomicAddr rs1) (bytesOf n (s.readX rs2)) false annot (s.hart.lr.map LrRecord.inst)).clearLr).writeX
    rd 0).retireSc i true)

/-- The unsuccessful SC (43_a.md R291): no memory operation, x[rd] <- 1. -/
def State.scFailure (s : State) (rd : Reg) (i : Instr) : State := ((s.drewSc.clearLr).writeX rd 1).retireSc i false

/-- SC of n bytes (43_a.md R291, 20_memory.md R107). A misaligned one stops; the conditions on its operation apply only when
it has one. -/
def State.storeConditional (s : State) (rd rs2 rs1 : Reg) (n : Nat) (annot : Annot) (i : Instr) : Result :=
  let a := s.atomicAddr rs1
  orStop (atomicStop a n)
    (if s.scSucceeds a n then
      orStop (firstStop (s.regionStop a n) (s.textStop a n)) (.next (s.scSuccess rd rs2 rs1 n annot i))
    else .next (s.scFailure rd i))

/-- An AMO of n bytes (43_a.md R292): `t <- MemAMO(x[rs1], n, g); x[rd] <- sext_XLEN(t)`, with the old registers. -/
def State.amoOp (s : State) (rd rs1 : Reg) (n : Nat) (g : Word → Word) (annot : Annot) (i : Instr) : Result :=
  let a := s.atomicAddr rs1
  orStop (s.amoStop a n)
    (.next (((s.memAmo a n g annot).writeX rd (signExtendBytes s.xlen n (wordOf (s.memRead a n)))).retire i))

/-- The function of a `.W` AMO: operands taken as 32-bit values (43_a.md R292). -/
def amoFun32 (f : (n : Nat) → BitVec n → BitVec n → BitVec n) (v t : Word) : Word :=
  (f 32 (t.setWidth 32) (v.setWidth 32)).setWidth 64

/-- The function of a `.D` AMO (43_a.md R303). -/
def amoFun64 (f : (n : Nat) → BitVec n → BitVec n → BitVec n) (v t : Word) : Word := f 64 t v

/-- LR.W (43_a.md R290). -/
def execLrW (rd rs1 : Reg) (aq rl : Bool) (s : State) : Result :=
  s.loadReserved rd rs1 4 (Annot.lr aq rl) (.lrW rd rs1 aq rl)

/-- SC.W (43_a.md R291). -/
def execScW (rd rs2 rs1 : Reg) (aq rl : Bool) (s : State) : Result :=
  s.storeConditional rd rs2 rs1 4 (Annot.sc aq rl) (.scW rd rs2 rs1 aq rl)

/-- AMOSWAP.W (43_a.md R292). -/
def execAmoswapW (rd rs2 rs1 : Reg) (aq rl : Bool) (s : State) : Result :=
  s.amoOp rd rs1 4 (amoFun32 amoSwap (s.readX rs2)) (Annot.amo aq rl) (.amoswapW rd rs2 rs1 aq rl)

/-- AMOADD.W (43_a.md R293). -/
def execAmoaddW (rd rs2 rs1 : Reg) (aq rl : Bool) (s : State) : Result :=
  s.amoOp rd rs1 4 (amoFun32 amoAdd (s.readX rs2)) (Annot.amo aq rl) (.amoaddW rd rs2 rs1 aq rl)

/-- AMOXOR.W (43_a.md R294). -/
def execAmoxorW (rd rs2 rs1 : Reg) (aq rl : Bool) (s : State) : Result :=
  s.amoOp rd rs1 4 (amoFun32 amoXor (s.readX rs2)) (Annot.amo aq rl) (.amoxorW rd rs2 rs1 aq rl)

/-- AMOAND.W (43_a.md R295). -/
def execAmoandW (rd rs2 rs1 : Reg) (aq rl : Bool) (s : State) : Result :=
  s.amoOp rd rs1 4 (amoFun32 amoAnd (s.readX rs2)) (Annot.amo aq rl) (.amoandW rd rs2 rs1 aq rl)

/-- AMOOR.W (43_a.md R296). -/
def execAmoorW (rd rs2 rs1 : Reg) (aq rl : Bool) (s : State) : Result :=
  s.amoOp rd rs1 4 (amoFun32 amoOr (s.readX rs2)) (Annot.amo aq rl) (.amoorW rd rs2 rs1 aq rl)

/-- AMOMIN.W (43_a.md R297). -/
def execAmominW (rd rs2 rs1 : Reg) (aq rl : Bool) (s : State) : Result :=
  s.amoOp rd rs1 4 (amoFun32 amoMin (s.readX rs2)) (Annot.amo aq rl) (.amominW rd rs2 rs1 aq rl)

/-- AMOMAX.W (43_a.md R298). -/
def execAmomaxW (rd rs2 rs1 : Reg) (aq rl : Bool) (s : State) : Result :=
  s.amoOp rd rs1 4 (amoFun32 amoMax (s.readX rs2)) (Annot.amo aq rl) (.amomaxW rd rs2 rs1 aq rl)

/-- AMOMINU.W (43_a.md R299). -/
def execAmominuW (rd rs2 rs1 : Reg) (aq rl : Bool) (s : State) : Result :=
  s.amoOp rd rs1 4 (amoFun32 amoMinu (s.readX rs2)) (Annot.amo aq rl) (.amominuW rd rs2 rs1 aq rl)

/-- AMOMAXU.W (43_a.md R300). -/
def execAmomaxuW (rd rs2 rs1 : Reg) (aq rl : Bool) (s : State) : Result :=
  s.amoOp rd rs1 4 (amoFun32 amoMaxu (s.readX rs2)) (Annot.amo aq rl) (.amomaxuW rd rs2 rs1 aq rl)

/-- LR.D (43_a.md R301). -/
def execLrD (rd rs1 : Reg) (aq rl : Bool) (s : State) : Result :=
  s.loadReserved rd rs1 8 (Annot.lr aq rl) (.lrD rd rs1 aq rl)

/-- SC.D (43_a.md R302). -/
def execScD (rd rs2 rs1 : Reg) (aq rl : Bool) (s : State) : Result :=
  s.storeConditional rd rs2 rs1 8 (Annot.sc aq rl) (.scD rd rs2 rs1 aq rl)

/-- AMOSWAP.D (43_a.md R303). -/
def execAmoswapD (rd rs2 rs1 : Reg) (aq rl : Bool) (s : State) : Result :=
  s.amoOp rd rs1 8 (amoFun64 amoSwap (s.readX rs2)) (Annot.amo aq rl) (.amoswapD rd rs2 rs1 aq rl)

/-- AMOADD.D (43_a.md R304). -/
def execAmoaddD (rd rs2 rs1 : Reg) (aq rl : Bool) (s : State) : Result :=
  s.amoOp rd rs1 8 (amoFun64 amoAdd (s.readX rs2)) (Annot.amo aq rl) (.amoaddD rd rs2 rs1 aq rl)

/-- AMOXOR.D (43_a.md R305). -/
def execAmoxorD (rd rs2 rs1 : Reg) (aq rl : Bool) (s : State) : Result :=
  s.amoOp rd rs1 8 (amoFun64 amoXor (s.readX rs2)) (Annot.amo aq rl) (.amoxorD rd rs2 rs1 aq rl)

/-- AMOAND.D (43_a.md R306). -/
def execAmoandD (rd rs2 rs1 : Reg) (aq rl : Bool) (s : State) : Result :=
  s.amoOp rd rs1 8 (amoFun64 amoAnd (s.readX rs2)) (Annot.amo aq rl) (.amoandD rd rs2 rs1 aq rl)

/-- AMOOR.D (43_a.md R307). -/
def execAmoorD (rd rs2 rs1 : Reg) (aq rl : Bool) (s : State) : Result :=
  s.amoOp rd rs1 8 (amoFun64 amoOr (s.readX rs2)) (Annot.amo aq rl) (.amoorD rd rs2 rs1 aq rl)

/-- AMOMIN.D (43_a.md R308). -/
def execAmominD (rd rs2 rs1 : Reg) (aq rl : Bool) (s : State) : Result :=
  s.amoOp rd rs1 8 (amoFun64 amoMin (s.readX rs2)) (Annot.amo aq rl) (.amominD rd rs2 rs1 aq rl)

/-- AMOMAX.D (43_a.md R309). -/
def execAmomaxD (rd rs2 rs1 : Reg) (aq rl : Bool) (s : State) : Result :=
  s.amoOp rd rs1 8 (amoFun64 amoMax (s.readX rs2)) (Annot.amo aq rl) (.amomaxD rd rs2 rs1 aq rl)

/-- AMOMINU.D (43_a.md R310). -/
def execAmominuD (rd rs2 rs1 : Reg) (aq rl : Bool) (s : State) : Result :=
  s.amoOp rd rs1 8 (amoFun64 amoMinu (s.readX rs2)) (Annot.amo aq rl) (.amominuD rd rs2 rs1 aq rl)

/-- AMOMAXU.D (43_a.md R311). -/
def execAmomaxuD (rd rs2 rs1 : Reg) (aq rl : Bool) (s : State) : Result :=
  s.amoOp rd rs1 8 (amoFun64 amoMaxu (s.readX rs2)) (Annot.amo aq rl) (.amomaxuD rd rs2 rs1 aq rl)

end Sys2Proof.Machine
end

