-- ==== Sys2Proof/Machine/Control.lean ====
section
/-! DEFINITION. Jumps and branches (40_rv32i.md R202 to R209). -/

namespace Sys2Proof.Machine

/-- A jump to a target that links `x[rd] <- pc + 4`, unless the target stops it. -/
def State.jump (s : State) (rd : Reg) (target : Word) (i : Instr) : Result :=
  orStop (s.targetStop target) (.next ((s.writeX rd s.nextPc).retireTo i target))

/-- A conditional branch: to the target when taken, unless the target stops it, else on to the next instruction. -/
def State.branch (s : State) (taken : Bool) (target : Word) (i : Instr) : Result :=
  if taken then orStop (s.targetStop target) (.next (s.retireTo i target)) else .next (s.retire i)

/-- JAL (40_rv32i.md R202): x[rd] <- pc + 4; pc <- pc + sext_XLEN(imm). -/
def execJal (rd : Reg) (imm : BitVec 21) (s : State) : Result :=
  s.jump rd (s.pcTarget imm) (.jal rd imm)

/-- JALR (40_rv32i.md R203): t <- pc + 4; pc <- (x[rs1] + sext_XLEN(imm)) & ~1; x[rd] <- t. The target uses the old rs1. -/
def execJalr (rd rs1 : Reg) (imm : BitVec 12) (s : State) : Result :=
  s.jump rd (s.indirectTarget rs1 imm) (.jalr rd rs1 imm)

/-- BEQ (40_rv32i.md R204): if x[rs1] == x[rs2] then pc <- pc + sext_XLEN(imm). -/
def execBeq (rs1 rs2 : Reg) (imm : BitVec 13) (s : State) : Result :=
  s.branch (s.xlen.test aluEq (s.readX rs1) (s.readX rs2)) (s.pcTarget imm) (.beq rs1 rs2 imm)

/-- BNE (40_rv32i.md R205): if x[rs1] != x[rs2] then pc <- pc + sext_XLEN(imm). -/
def execBne (rs1 rs2 : Reg) (imm : BitVec 13) (s : State) : Result :=
  s.branch (!s.xlen.test aluEq (s.readX rs1) (s.readX rs2)) (s.pcTarget imm) (.bne rs1 rs2 imm)

/-- BLT (40_rv32i.md R206): if x[rs1] <s x[rs2] then pc <- pc + sext_XLEN(imm). -/
def execBlt (rs1 rs2 : Reg) (imm : BitVec 13) (s : State) : Result :=
  s.branch (s.xlen.test aluLt (s.readX rs1) (s.readX rs2)) (s.pcTarget imm) (.blt rs1 rs2 imm)

/-- BGE (40_rv32i.md R207): if x[rs1] >=s x[rs2] then pc <- pc + sext_XLEN(imm). -/
def execBge (rs1 rs2 : Reg) (imm : BitVec 13) (s : State) : Result :=
  s.branch (!s.xlen.test aluLt (s.readX rs1) (s.readX rs2)) (s.pcTarget imm) (.bge rs1 rs2 imm)

/-- BLTU (40_rv32i.md R208): if x[rs1] <u x[rs2] then pc <- pc + sext_XLEN(imm). -/
def execBltu (rs1 rs2 : Reg) (imm : BitVec 13) (s : State) : Result :=
  s.branch (s.xlen.test aluLtu (s.readX rs1) (s.readX rs2)) (s.pcTarget imm) (.bltu rs1 rs2 imm)

/-- BGEU (40_rv32i.md R209): if x[rs1] >=u x[rs2] then pc <- pc + sext_XLEN(imm). -/
def execBgeu (rs1 rs2 : Reg) (imm : BitVec 13) (s : State) : Result :=
  s.branch (!s.xlen.test aluLtu (s.readX rs1) (s.readX rs2)) (s.pcTarget imm) (.bgeu rs1 rs2 imm)

end Sys2Proof.Machine
end

