-- ==== Sys2Proof/Machine/FloatOps.lean ====
section
/-! DEFINITION. What the floating-point families share (44_f.md and 45_d.md headers). -/

namespace Sys2Proof.Machine

/-- `f[rd] <- nanbox(result); fflags <- fflags | raised`. -/
def State.setS (s : State) (rd : Reg) (cell : FlagMask) (r : FpResult) (i : Instr) : Result :=
  .next (((s.writeS rd r.1).accrue cell r.2).retire i)

/-- `f[rd] <- result; fflags <- fflags | raised`. -/
def State.setD (s : State) (rd : Reg) (cell : FlagMask) (r : FpResult) (i : Instr) : Result :=
  .next (((s.writeD rd r.1).accrue cell r.2).retire i)

/-- `x[rd] <- v; fflags <- fflags | raised`. -/
def State.setXF (s : State) (rd : Reg) (cell : FlagMask) (v : Word) (raised : FlagBits) (i : Instr) : Result :=
  .next (((s.writeX rd v).accrue cell raised).retire i)

/-- A floating-point load of n bytes. -/
def State.loadF (s : State) (rd rs1 : Reg) (imm : BitVec 12) (n : Nat) (box : Word → Word) (double : Bool) (i : Instr) :
    Result :=
  let a := s.effAddr rs1 imm
  orStop (s.loadStop a n)
    (.next (((s.afterRead a n double Annot.none).writeF rd (box (wordOf (s.memRead a n)))).retire i))

/-- A floating-point store of the n low bytes of f[rs2]. -/
def State.storeF (s : State) (rs2 rs1 : Reg) (imm : BitVec 12) (n : Nat) (double : Bool) (i : Instr) : Result :=
  let a := s.effAddr rs1 imm
  orStop (s.storeStop a n)
    (.next ((s.memWrite a (bytesOf n (s.readF rs2)) double Annot.none none).retire i))

/-- A conversion to an integer of w bits (44_f.md R336, R337): saturating, the w-bit result sign-extended to XLEN. -/
def toIntResult (f : Fmt) (rm : RoundMode) (signed : Bool) (w : Nat) (a : Nat) : Int × FlagBits :=
  if signed then f.toInt rm (-(2 ^ (w - 1))) (2 ^ (w - 1) - 1) a else f.toInt rm 0 (2 ^ w - 1) a

/-- A w-bit integer result, sign-extended to XLEN. -/
def State.intValue (s : State) (w : Nat) (v : Int) : Word := s.xlen.sext (BitVec.ofInt w v)

end Sys2Proof.Machine
end

