-- ==== Sys2Proof/Machine/Integer.lean ====
section
/-! DEFINITION. The integer computational instructions of RV32I (40_rv32i.md R200, R201, R218 to R236). -/

namespace Sys2Proof.Machine

/-- `x[rd] <- v`, and on to the next instruction. -/
def State.setX (s : State) (rd : Reg) (v : Word) (i : Instr) : Result := .next ((s.writeX rd v).retire i)

/-- LUI (40_rv32i.md R200): x[rd] <- sext_XLEN({imm[31:12], 0x000}). -/
def execLui (rd : Reg) (imm : BitVec 20) (s : State) : Result :=
  s.setX rd (s.immU imm) (.lui rd imm)

/-- AUIPC (40_rv32i.md R201): x[rd] <- pc + sext_XLEN({imm[31:12], 0x000}); the write keeps XLEN bits. -/
def execAuipc (rd : Reg) (imm : BitVec 20) (s : State) : Result :=
  s.setX rd (s.pc + s.immU imm) (.auipc rd imm)

/-- ADDI (40_rv32i.md R218): x[rd] <- x[rs1] + sext_XLEN(imm). -/
def execAddi (rd rs1 : Reg) (imm : BitVec 12) (s : State) : Result :=
  s.setX rd (s.xlen.bin aluAdd (s.readX rs1) (s.imm imm)) (.addi rd rs1 imm)

/-- SLTI (40_rv32i.md R219): x[rd] <- (x[rs1] <s sext_XLEN(imm)) ? 1 : 0. -/
def execSlti (rd rs1 : Reg) (imm : BitVec 12) (s : State) : Result :=
  s.setX rd (boolWord (s.xlen.test aluLt (s.readX rs1) (s.imm imm))) (.slti rd rs1 imm)

/-- SLTIU (40_rv32i.md R220): x[rd] <- (x[rs1] <u sext_XLEN(imm)) ? 1 : 0. -/
def execSltiu (rd rs1 : Reg) (imm : BitVec 12) (s : State) : Result :=
  s.setX rd (boolWord (s.xlen.test aluLtu (s.readX rs1) (s.imm imm))) (.sltiu rd rs1 imm)

/-- XORI (40_rv32i.md R221): x[rd] <- x[rs1] ^ sext_XLEN(imm). -/
def execXori (rd rs1 : Reg) (imm : BitVec 12) (s : State) : Result :=
  s.setX rd (s.xlen.bin aluXor (s.readX rs1) (s.imm imm)) (.xori rd rs1 imm)

/-- ORI (40_rv32i.md R222): x[rd] <- x[rs1] | sext_XLEN(imm). -/
def execOri (rd rs1 : Reg) (imm : BitVec 12) (s : State) : Result :=
  s.setX rd (s.xlen.bin aluOr (s.readX rs1) (s.imm imm)) (.ori rd rs1 imm)

/-- ANDI (40_rv32i.md R223): x[rd] <- x[rs1] & sext_XLEN(imm). -/
def execAndi (rd rs1 : Reg) (imm : BitVec 12) (s : State) : Result :=
  s.setX rd (s.xlen.bin aluAnd (s.readX rs1) (s.imm imm)) (.andi rd rs1 imm)

/-- SLLI (40_rv32i.md R224): x[rd] <- x[rs1] << shamt. -/
def execSlli32 (rd rs1 : Reg) (shamt : BitVec 5) (s : State) : Result :=
  s.setX rd (s.xlen.bin aluSll (s.readX rs1) (shamt.setWidth 64)) (.slli32 rd rs1 shamt)

/-- SRLI (40_rv32i.md R225): x[rd] <- x[rs1] >>u shamt. -/
def execSrli32 (rd rs1 : Reg) (shamt : BitVec 5) (s : State) : Result :=
  s.setX rd (s.xlen.bin aluSrl (s.readX rs1) (shamt.setWidth 64)) (.srli32 rd rs1 shamt)

/-- SRAI (40_rv32i.md R226): x[rd] <- x[rs1] >>s shamt. -/
def execSrai32 (rd rs1 : Reg) (shamt : BitVec 5) (s : State) : Result :=
  s.setX rd (s.xlen.bin aluSra (s.readX rs1) (shamt.setWidth 64)) (.srai32 rd rs1 shamt)

/-- ADD (40_rv32i.md R227): x[rd] <- x[rs1] + x[rs2]. -/
def execAdd (rd rs1 rs2 : Reg) (s : State) : Result :=
  s.setX rd (s.xlen.bin aluAdd (s.readX rs1) (s.readX rs2)) (.add rd rs1 rs2)

/-- SUB (40_rv32i.md R228): x[rd] <- x[rs1] - x[rs2]. -/
def execSub (rd rs1 rs2 : Reg) (s : State) : Result :=
  s.setX rd (s.xlen.bin aluSub (s.readX rs1) (s.readX rs2)) (.sub rd rs1 rs2)

/-- SLL (40_rv32i.md R229): x[rd] <- x[rs1] << x[rs2][log2(XLEN)-1:0]. -/
def execSll (rd rs1 rs2 : Reg) (s : State) : Result :=
  s.setX rd (s.xlen.bin aluSll (s.readX rs1) (s.readX rs2)) (.sll rd rs1 rs2)

/-- SLT (40_rv32i.md R230): x[rd] <- (x[rs1] <s x[rs2]) ? 1 : 0. -/
def execSlt (rd rs1 rs2 : Reg) (s : State) : Result :=
  s.setX rd (boolWord (s.xlen.test aluLt (s.readX rs1) (s.readX rs2))) (.slt rd rs1 rs2)

/-- SLTU (40_rv32i.md R231): x[rd] <- (x[rs1] <u x[rs2]) ? 1 : 0. -/
def execSltu (rd rs1 rs2 : Reg) (s : State) : Result :=
  s.setX rd (boolWord (s.xlen.test aluLtu (s.readX rs1) (s.readX rs2))) (.sltu rd rs1 rs2)

/-- XOR (40_rv32i.md R232): x[rd] <- x[rs1] ^ x[rs2]. -/
def execXor (rd rs1 rs2 : Reg) (s : State) : Result :=
  s.setX rd (s.xlen.bin aluXor (s.readX rs1) (s.readX rs2)) (.xor rd rs1 rs2)

/-- SRL (40_rv32i.md R233): x[rd] <- x[rs1] >>u x[rs2][log2(XLEN)-1:0]. -/
def execSrl (rd rs1 rs2 : Reg) (s : State) : Result :=
  s.setX rd (s.xlen.bin aluSrl (s.readX rs1) (s.readX rs2)) (.srl rd rs1 rs2)

/-- SRA (40_rv32i.md R234): x[rd] <- x[rs1] >>s x[rs2][log2(XLEN)-1:0]. -/
def execSra (rd rs1 rs2 : Reg) (s : State) : Result :=
  s.setX rd (s.xlen.bin aluSra (s.readX rs1) (s.readX rs2)) (.sra rd rs1 rs2)

/-- OR (40_rv32i.md R235): x[rd] <- x[rs1] | x[rs2]. -/
def execOr (rd rs1 rs2 : Reg) (s : State) : Result :=
  s.setX rd (s.xlen.bin aluOr (s.readX rs1) (s.readX rs2)) (.or rd rs1 rs2)

/-- AND (40_rv32i.md R236): x[rd] <- x[rs1] & x[rs2]. -/
def execAnd (rd rs1 rs2 : Reg) (s : State) : Result :=
  s.setX rd (s.xlen.bin aluAnd (s.readX rs1) (s.readX rs2)) (.and rd rs1 rs2)

end Sys2Proof.Machine
end

