-- ==== Sys2Proof/Machine/FloatD.lean ====
section
/-! DEFINITION. Double precision (45_d.md R360 to R391). -/

namespace Sys2Proof.Machine

/-- FLD (45_d.md R360): f[rd] <- MemRead(x[rs1] + sext_XLEN(imm), 8). -/
def execFld (rd rs1 : Reg) (imm : BitVec 12) (s : State) : Result :=
  s.loadF rd rs1 imm 8 id true (.fld rd rs1 imm)

/-- FSD (45_d.md R361): MemWrite(x[rs1] + sext_XLEN(imm), 8, f[rs2]). -/
def execFsd (rs2 rs1 : Reg) (imm : BitVec 12) (s : State) : Result :=
  s.storeF rs2 rs1 imm 8 true (.fsd rs2 rs1 imm)

/-- FMADD.D (45_d.md R362). -/
def execFmaddD (rd rs1 rs2 rs3 : Reg) (rm : BitVec 3) (s : State) : Result :=
  s.withRounding rm fun r => s.setD rd accMul (Fmt.double.fmadd r (s.readD rs1) (s.readD rs2) (s.readD rs3)) (.fmaddD rd rs1 rs2 rs3 rm)

/-- FMSUB.D (45_d.md R363). -/
def execFmsubD (rd rs1 rs2 rs3 : Reg) (rm : BitVec 3) (s : State) : Result :=
  s.withRounding rm fun r => s.setD rd accMul (Fmt.double.fmsub r (s.readD rs1) (s.readD rs2) (s.readD rs3)) (.fmsubD rd rs1 rs2 rs3 rm)

/-- FNMSUB.D (45_d.md R364). -/
def execFnmsubD (rd rs1 rs2 rs3 : Reg) (rm : BitVec 3) (s : State) : Result :=
  s.withRounding rm fun r => s.setD rd accMul (Fmt.double.fnmsub r (s.readD rs1) (s.readD rs2) (s.readD rs3)) (.fnmsubD rd rs1 rs2 rs3 rm)

/-- FNMADD.D (45_d.md R365). -/
def execFnmaddD (rd rs1 rs2 rs3 : Reg) (rm : BitVec 3) (s : State) : Result :=
  s.withRounding rm fun r => s.setD rd accMul (Fmt.double.fnmadd r (s.readD rs1) (s.readD rs2) (s.readD rs3)) (.fnmaddD rd rs1 rs2 rs3 rm)

/-- FADD.D (45_d.md R366). -/
def execFaddD (rd rs1 rs2 : Reg) (rm : BitVec 3) (s : State) : Result :=
  s.withRounding rm fun r => s.setD rd accSum (Fmt.double.add r (s.readD rs1) (s.readD rs2)) (.faddD rd rs1 rs2 rm)

/-- FSUB.D (45_d.md R367). -/
def execFsubD (rd rs1 rs2 : Reg) (rm : BitVec 3) (s : State) : Result :=
  s.withRounding rm fun r => s.setD rd accSum (Fmt.double.sub r (s.readD rs1) (s.readD rs2)) (.fsubD rd rs1 rs2 rm)

/-- FMUL.D (45_d.md R368). -/
def execFmulD (rd rs1 rs2 : Reg) (rm : BitVec 3) (s : State) : Result :=
  s.withRounding rm fun r => s.setD rd accMul (Fmt.double.mul r (s.readD rs1) (s.readD rs2)) (.fmulD rd rs1 rs2 rm)

/-- FDIV.D (45_d.md R369). -/
def execFdivD (rd rs1 rs2 : Reg) (rm : BitVec 3) (s : State) : Result :=
  s.withRounding rm fun r => s.setD rd accDiv (Fmt.double.div r (s.readD rs1) (s.readD rs2)) (.fdivD rd rs1 rs2 rm)

/-- FSQRT.D (45_d.md R370). -/
def execFsqrtD (rd rs1 : Reg) (rm : BitVec 3) (s : State) : Result :=
  s.withRounding rm fun r => s.setD rd accInt (Fmt.double.sqrt r (s.readD rs1)) (.fsqrtD rd rs1 rm)

/-- FSGNJ.D (45_d.md R371). -/
def execFsgnjD (rd rs1 rs2 : Reg) (s : State) : Result :=
  s.setD rd 0 (Fmt.double.setSign (Fmt.double.neg (s.readD rs2)) (s.readD rs1), 0) (.fsgnjD rd rs1 rs2)

/-- FSGNJN.D (45_d.md R372). -/
def execFsgnjnD (rd rs1 rs2 : Reg) (s : State) : Result :=
  s.setD rd 0 (Fmt.double.setSign (!Fmt.double.neg (s.readD rs2)) (s.readD rs1), 0) (.fsgnjnD rd rs1 rs2)

/-- FSGNJX.D (45_d.md R373). -/
def execFsgnjxD (rd rs1 rs2 : Reg) (s : State) : Result :=
  s.setD rd 0 (Fmt.double.setSign (Fmt.double.neg (s.readD rs1) != Fmt.double.neg (s.readD rs2)) (s.readD rs1), 0) (.fsgnjxD rd rs1 rs2)

/-- FMIN.D (45_d.md R374). -/
def execFminD (rd rs1 rs2 : Reg) (s : State) : Result :=
  s.setD rd accNv (Fmt.double.min (s.readD rs1) (s.readD rs2)) (.fminD rd rs1 rs2)

/-- FMAX.D (45_d.md R375). -/
def execFmaxD (rd rs1 rs2 : Reg) (s : State) : Result :=
  s.setD rd accNv (Fmt.double.max (s.readD rs1) (s.readD rs2)) (.fmaxD rd rs1 rs2)

/-- FCVT.S.D (45_d.md R376). -/
def execFcvtSD (rd rs1 : Reg) (rm : BitVec 3) (s : State) : Result :=
  s.withRounding rm fun r => s.setS rd accMul (Fmt.convert .double .single r (s.readD rs1)) (.fcvtSD rd rs1 rm)

/-- FCVT.D.S (45_d.md R377), always exact. A reserved rm stops it too (log 11). -/
def execFcvtDS (rd rs1 : Reg) (rm : BitVec 3) (s : State) : Result :=
  s.withRounding rm fun r => s.setD rd accNv (Fmt.convert .single .double r (s.readS rs1)) (.fcvtDS rd rs1 rm)

/-- FEQ.D (45_d.md R378). -/
def execFeqD (rd rs1 rs2 : Reg) (s : State) : Result :=
  s.setXF rd accNv (boolWord (Fmt.double.eq (s.readD rs1) (s.readD rs2)).1) (Fmt.double.eq (s.readD rs1) (s.readD rs2)).2 (.feqD rd rs1 rs2)

/-- FLT.D (45_d.md R379). -/
def execFltD (rd rs1 rs2 : Reg) (s : State) : Result :=
  s.setXF rd accNv (boolWord (Fmt.double.lt (s.readD rs1) (s.readD rs2)).1) (Fmt.double.lt (s.readD rs1) (s.readD rs2)).2 (.fltD rd rs1 rs2)

/-- FLE.D (45_d.md R380). -/
def execFleD (rd rs1 rs2 : Reg) (s : State) : Result :=
  s.setXF rd accNv (boolWord (Fmt.double.le (s.readD rs1) (s.readD rs2)).1) (Fmt.double.le (s.readD rs1) (s.readD rs2)).2 (.fleD rd rs1 rs2)

/-- FCLASS.D (45_d.md R381). -/
def execFclassD (rd rs1 : Reg) (s : State) : Result :=
  s.setX rd (BitVec.ofNat 64 (2 ^ Fmt.double.classBit (s.readD rs1))) (.fclassD rd rs1)

/-- FCVT.W.D (45_d.md R382). -/
def execFcvtWD (rd rs1 : Reg) (rm : BitVec 3) (s : State) : Result :=
  s.withRounding rm fun r =>
    s.setXF rd accInt (s.intValue 32 (toIntResult Fmt.double r true 32 (s.readD rs1)).1)
      (toIntResult Fmt.double r true 32 (s.readD rs1)).2 (.fcvtWD rd rs1 rm)

/-- FCVT.WU.D (45_d.md R383). -/
def execFcvtWUD (rd rs1 : Reg) (rm : BitVec 3) (s : State) : Result :=
  s.withRounding rm fun r =>
    s.setXF rd accInt (s.intValue 32 (toIntResult Fmt.double r false 32 (s.readD rs1)).1)
      (toIntResult Fmt.double r false 32 (s.readD rs1)).2 (.fcvtWUD rd rs1 rm)

/-- FCVT.D.W (45_d.md R384). -/
def execFcvtDW (rd rs1 : Reg) (rm : BitVec 3) (s : State) : Result :=
  s.withRounding rm fun r => s.setD rd 0 (Fmt.double.ofInt r ((s.readX rs1).setWidth 32).toInt) (.fcvtDW rd rs1 rm)

/-- FCVT.D.WU (45_d.md R385). -/
def execFcvtDWU (rd rs1 : Reg) (rm : BitVec 3) (s : State) : Result :=
  s.withRounding rm fun r => s.setD rd 0 (Fmt.double.ofInt r (((s.readX rs1).setWidth 32).toNat : Int)) (.fcvtDWU rd rs1 rm)

/-- FCVT.L.D (45_d.md R386). -/
def execFcvtLD (rd rs1 : Reg) (rm : BitVec 3) (s : State) : Result :=
  s.withRounding rm fun r =>
    s.setXF rd accInt (s.intValue 64 (toIntResult Fmt.double r true 64 (s.readD rs1)).1)
      (toIntResult Fmt.double r true 64 (s.readD rs1)).2 (.fcvtLD rd rs1 rm)

/-- FCVT.LU.D (45_d.md R387). -/
def execFcvtLUD (rd rs1 : Reg) (rm : BitVec 3) (s : State) : Result :=
  s.withRounding rm fun r =>
    s.setXF rd accInt (s.intValue 64 (toIntResult Fmt.double r false 64 (s.readD rs1)).1)
      (toIntResult Fmt.double r false 64 (s.readD rs1)).2 (.fcvtLUD rd rs1 rm)

/-- FMV.X.D (45_d.md R388): x[rd] <- f[rs1]. -/
def execFmvXD (rd rs1 : Reg) (s : State) : Result :=
  s.setX rd (s.readF rs1) (.fmvXD rd rs1)

/-- FCVT.D.L (45_d.md R389). -/
def execFcvtDL (rd rs1 : Reg) (rm : BitVec 3) (s : State) : Result :=
  s.withRounding rm fun r => s.setD rd accNx (Fmt.double.ofInt r (s.readX rs1).toInt) (.fcvtDL rd rs1 rm)

/-- FCVT.D.LU (45_d.md R390). -/
def execFcvtDLU (rd rs1 : Reg) (rm : BitVec 3) (s : State) : Result :=
  s.withRounding rm fun r => s.setD rd accNx (Fmt.double.ofInt r ((s.readX rs1).toNat : Int)) (.fcvtDLU rd rs1 rm)

/-- FMV.D.X (45_d.md R391): f[rd] <- x[rs1]. -/
def execFmvDX (rd rs1 : Reg) (s : State) : Result :=
  .next ((s.writeF rd (s.readX rs1)).retire (.fmvDX rd rs1))

end Sys2Proof.Machine
end

