-- ==== Sys2Proof/Machine/FloatS.lean ====
section
/-! DEFINITION. Single precision (44_f.md R320 to R349). -/

namespace Sys2Proof.Machine

/-- FLW (44_f.md R320): f[rd] <- nanbox(MemRead(x[rs1] + sext_XLEN(imm), 4)). -/
def execFlw (rd rs1 : Reg) (imm : BitVec 12) (s : State) : Result :=
  s.loadF rd rs1 imm 4 (fun w => nanbox (w.setWidth 32)) false (.flw rd rs1 imm)

/-- FSW (44_f.md R321): MemWrite(x[rs1] + sext_XLEN(imm), 4, f[rs2][31:0]). -/
def execFsw (rs2 rs1 : Reg) (imm : BitVec 12) (s : State) : Result :=
  s.storeF rs2 rs1 imm 4 false (.fsw rs2 rs1 imm)

/-- FMADD.S (44_f.md R322). -/
def execFmaddS (rd rs1 rs2 rs3 : Reg) (rm : BitVec 3) (s : State) : Result :=
  s.withRounding rm fun r => s.setS rd accMul (Fmt.single.fmadd r (s.readS rs1) (s.readS rs2) (s.readS rs3)) (.fmaddS rd rs1 rs2 rs3 rm)

/-- FMSUB.S (44_f.md R323). -/
def execFmsubS (rd rs1 rs2 rs3 : Reg) (rm : BitVec 3) (s : State) : Result :=
  s.withRounding rm fun r => s.setS rd accMul (Fmt.single.fmsub r (s.readS rs1) (s.readS rs2) (s.readS rs3)) (.fmsubS rd rs1 rs2 rs3 rm)

/-- FNMSUB.S (44_f.md R324). -/
def execFnmsubS (rd rs1 rs2 rs3 : Reg) (rm : BitVec 3) (s : State) : Result :=
  s.withRounding rm fun r => s.setS rd accMul (Fmt.single.fnmsub r (s.readS rs1) (s.readS rs2) (s.readS rs3)) (.fnmsubS rd rs1 rs2 rs3 rm)

/-- FNMADD.S (44_f.md R325). -/
def execFnmaddS (rd rs1 rs2 rs3 : Reg) (rm : BitVec 3) (s : State) : Result :=
  s.withRounding rm fun r => s.setS rd accMul (Fmt.single.fnmadd r (s.readS rs1) (s.readS rs2) (s.readS rs3)) (.fnmaddS rd rs1 rs2 rs3 rm)

/-- FADD.S (44_f.md R326). -/
def execFaddS (rd rs1 rs2 : Reg) (rm : BitVec 3) (s : State) : Result :=
  s.withRounding rm fun r => s.setS rd accSum (Fmt.single.add r (s.readS rs1) (s.readS rs2)) (.faddS rd rs1 rs2 rm)

/-- FSUB.S (44_f.md R327). -/
def execFsubS (rd rs1 rs2 : Reg) (rm : BitVec 3) (s : State) : Result :=
  s.withRounding rm fun r => s.setS rd accSum (Fmt.single.sub r (s.readS rs1) (s.readS rs2)) (.fsubS rd rs1 rs2 rm)

/-- FMUL.S (44_f.md R328). -/
def execFmulS (rd rs1 rs2 : Reg) (rm : BitVec 3) (s : State) : Result :=
  s.withRounding rm fun r => s.setS rd accMul (Fmt.single.mul r (s.readS rs1) (s.readS rs2)) (.fmulS rd rs1 rs2 rm)

/-- FDIV.S (44_f.md R329). -/
def execFdivS (rd rs1 rs2 : Reg) (rm : BitVec 3) (s : State) : Result :=
  s.withRounding rm fun r => s.setS rd accDiv (Fmt.single.div r (s.readS rs1) (s.readS rs2)) (.fdivS rd rs1 rs2 rm)

/-- FSQRT.S (44_f.md R330). -/
def execFsqrtS (rd rs1 : Reg) (rm : BitVec 3) (s : State) : Result :=
  s.withRounding rm fun r => s.setS rd accInt (Fmt.single.sqrt r (s.readS rs1)) (.fsqrtS rd rs1 rm)

/-- FSGNJ.S (44_f.md R331). -/
def execFsgnjS (rd rs1 rs2 : Reg) (s : State) : Result :=
  s.setS rd 0 (Fmt.single.setSign (Fmt.single.neg (s.readS rs2)) (s.readS rs1), 0) (.fsgnjS rd rs1 rs2)

/-- FSGNJN.S (44_f.md R332). -/
def execFsgnjnS (rd rs1 rs2 : Reg) (s : State) : Result :=
  s.setS rd 0 (Fmt.single.setSign (!Fmt.single.neg (s.readS rs2)) (s.readS rs1), 0) (.fsgnjnS rd rs1 rs2)

/-- FSGNJX.S (44_f.md R333). -/
def execFsgnjxS (rd rs1 rs2 : Reg) (s : State) : Result :=
  s.setS rd 0 (Fmt.single.setSign (Fmt.single.neg (s.readS rs1) != Fmt.single.neg (s.readS rs2)) (s.readS rs1), 0) (.fsgnjxS rd rs1 rs2)

/-- FMIN.S (44_f.md R334). -/
def execFminS (rd rs1 rs2 : Reg) (s : State) : Result :=
  s.setS rd accNv (Fmt.single.min (s.readS rs1) (s.readS rs2)) (.fminS rd rs1 rs2)

/-- FMAX.S (44_f.md R335). -/
def execFmaxS (rd rs1 rs2 : Reg) (s : State) : Result :=
  s.setS rd accNv (Fmt.single.max (s.readS rs1) (s.readS rs2)) (.fmaxS rd rs1 rs2)

/-- FCVT.W.S (44_f.md R336). -/
def execFcvtWS (rd rs1 : Reg) (rm : BitVec 3) (s : State) : Result :=
  s.withRounding rm fun r =>
    s.setXF rd accInt (s.intValue 32 (toIntResult Fmt.single r true 32 (s.readS rs1)).1)
      (toIntResult Fmt.single r true 32 (s.readS rs1)).2 (.fcvtWS rd rs1 rm)

/-- FCVT.WU.S (44_f.md R337). -/
def execFcvtWUS (rd rs1 : Reg) (rm : BitVec 3) (s : State) : Result :=
  s.withRounding rm fun r =>
    s.setXF rd accInt (s.intValue 32 (toIntResult Fmt.single r false 32 (s.readS rs1)).1)
      (toIntResult Fmt.single r false 32 (s.readS rs1)).2 (.fcvtWUS rd rs1 rm)

/-- FMV.X.W (44_f.md R338): x[rd] <- sext_XLEN(f[rs1][31:0]). -/
def execFmvXW (rd rs1 : Reg) (s : State) : Result :=
  s.setX rd (s.xlen.sext ((s.readF rs1).setWidth 32)) (.fmvXW rd rs1)

/-- FEQ.S (44_f.md R339). -/
def execFeqS (rd rs1 rs2 : Reg) (s : State) : Result :=
  s.setXF rd accNv (boolWord (Fmt.single.eq (s.readS rs1) (s.readS rs2)).1) (Fmt.single.eq (s.readS rs1) (s.readS rs2)).2 (.feqS rd rs1 rs2)

/-- FLT.S (44_f.md R340). -/
def execFltS (rd rs1 rs2 : Reg) (s : State) : Result :=
  s.setXF rd accNv (boolWord (Fmt.single.lt (s.readS rs1) (s.readS rs2)).1) (Fmt.single.lt (s.readS rs1) (s.readS rs2)).2 (.fltS rd rs1 rs2)

/-- FLE.S (44_f.md R341). -/
def execFleS (rd rs1 rs2 : Reg) (s : State) : Result :=
  s.setXF rd accNv (boolWord (Fmt.single.le (s.readS rs1) (s.readS rs2)).1) (Fmt.single.le (s.readS rs1) (s.readS rs2)).2 (.fleS rd rs1 rs2)

/-- FCLASS.S (44_f.md R342). -/
def execFclassS (rd rs1 : Reg) (s : State) : Result :=
  s.setX rd (BitVec.ofNat 64 (2 ^ Fmt.single.classBit (s.readS rs1))) (.fclassS rd rs1)

/-- FCVT.S.W (44_f.md R343). -/
def execFcvtSW (rd rs1 : Reg) (rm : BitVec 3) (s : State) : Result :=
  s.withRounding rm fun r => s.setS rd accNx (Fmt.single.ofInt r ((s.readX rs1).setWidth 32).toInt) (.fcvtSW rd rs1 rm)

/-- FCVT.S.WU (44_f.md R344). -/
def execFcvtSWU (rd rs1 : Reg) (rm : BitVec 3) (s : State) : Result :=
  s.withRounding rm fun r => s.setS rd accNx (Fmt.single.ofInt r (((s.readX rs1).setWidth 32).toNat : Int)) (.fcvtSWU rd rs1 rm)

/-- FMV.W.X (44_f.md R345): f[rd] <- nanbox(x[rs1][31:0]). -/
def execFmvWX (rd rs1 : Reg) (s : State) : Result :=
  .next ((s.writeF rd (nanbox ((s.readX rs1).setWidth 32))).retire (.fmvWX rd rs1))

/-- FCVT.L.S (44_f.md R346). -/
def execFcvtLS (rd rs1 : Reg) (rm : BitVec 3) (s : State) : Result :=
  s.withRounding rm fun r =>
    s.setXF rd accInt (s.intValue 64 (toIntResult Fmt.single r true 64 (s.readS rs1)).1)
      (toIntResult Fmt.single r true 64 (s.readS rs1)).2 (.fcvtLS rd rs1 rm)

/-- FCVT.LU.S (44_f.md R347). -/
def execFcvtLUS (rd rs1 : Reg) (rm : BitVec 3) (s : State) : Result :=
  s.withRounding rm fun r =>
    s.setXF rd accInt (s.intValue 64 (toIntResult Fmt.single r false 64 (s.readS rs1)).1)
      (toIntResult Fmt.single r false 64 (s.readS rs1)).2 (.fcvtLUS rd rs1 rm)

/-- FCVT.S.L (44_f.md R348). -/
def execFcvtSL (rd rs1 : Reg) (rm : BitVec 3) (s : State) : Result :=
  s.withRounding rm fun r => s.setS rd accNx (Fmt.single.ofInt r (s.readX rs1).toInt) (.fcvtSL rd rs1 rm)

/-- FCVT.S.LU (44_f.md R349). -/
def execFcvtSLU (rd rs1 : Reg) (rm : BitVec 3) (s : State) : Result :=
  s.withRounding rm fun r => s.setS rd accNx (Fmt.single.ofInt r ((s.readX rs1).toNat : Int)) (.fcvtSLU rd rs1 rm)

end Sys2Proof.Machine
end

