-- ==== Sys2Proof/Machine/LoadStore.lean ====
section
/-! DEFINITION. The integer loads and stores of RV32I (40_rv32i.md R210 to R217). -/

namespace Sys2Proof.Machine

/-- An integer load of n bytes: `x[rd] <- ext(MemRead(x[rs1] + sext_XLEN(imm), n))`. The load is performed also when rd = 0
(40_rv32i.md R210). -/
def State.loadX (s : State) (rd rs1 : Reg) (imm : BitVec 12) (n : Nat) (ext : Word → Word) (i : Instr) : Result :=
  let a := s.effAddr rs1 imm
  orStop (s.loadStop a n)
    (.next (((s.afterRead a n false Annot.none).writeX rd (ext (wordOf (s.memRead a n)))).retire i))

/-- An integer store of the n low bytes of x[rs2]: `MemWrite(x[rs1] + sext_XLEN(imm), n, x[rs2])`. -/
def State.storeX (s : State) (rs2 rs1 : Reg) (imm : BitVec 12) (n : Nat) (i : Instr) : Result :=
  let a := s.effAddr rs1 imm
  orStop (s.storeStop a n)
    (.next ((s.memWrite a (bytesOf n (s.readX rs2)) false Annot.none none).retire i))

/-- LB (40_rv32i.md R210): x[rd] <- sext_XLEN(MemRead(x[rs1] + sext_XLEN(imm), 1)). -/
def execLb (rd rs1 : Reg) (imm : BitVec 12) (s : State) : Result :=
  s.loadX rd rs1 imm 1 (signExtendBytes s.xlen 1) (.lb rd rs1 imm)

/-- LH (40_rv32i.md R211): x[rd] <- sext_XLEN(MemRead(x[rs1] + sext_XLEN(imm), 2)). -/
def execLh (rd rs1 : Reg) (imm : BitVec 12) (s : State) : Result :=
  s.loadX rd rs1 imm 2 (signExtendBytes s.xlen 2) (.lh rd rs1 imm)

/-- LW (40_rv32i.md R212): x[rd] <- sext_XLEN(MemRead(x[rs1] + sext_XLEN(imm), 4)). -/
def execLw (rd rs1 : Reg) (imm : BitVec 12) (s : State) : Result :=
  s.loadX rd rs1 imm 4 (signExtendBytes s.xlen 4) (.lw rd rs1 imm)

/-- LBU (40_rv32i.md R213): x[rd] <- zext_XLEN(MemRead(x[rs1] + sext_XLEN(imm), 1)). -/
def execLbu (rd rs1 : Reg) (imm : BitVec 12) (s : State) : Result :=
  s.loadX rd rs1 imm 1 id (.lbu rd rs1 imm)

/-- LHU (40_rv32i.md R214): x[rd] <- zext_XLEN(MemRead(x[rs1] + sext_XLEN(imm), 2)). -/
def execLhu (rd rs1 : Reg) (imm : BitVec 12) (s : State) : Result :=
  s.loadX rd rs1 imm 2 id (.lhu rd rs1 imm)

/-- SB (40_rv32i.md R215): MemWrite(x[rs1] + sext_XLEN(imm), 1, x[rs2][7:0]). -/
def execSb (rs2 rs1 : Reg) (imm : BitVec 12) (s : State) : Result :=
  s.storeX rs2 rs1 imm 1 (.sb rs2 rs1 imm)

/-- SH (40_rv32i.md R216): MemWrite(x[rs1] + sext_XLEN(imm), 2, x[rs2][15:0]). -/
def execSh (rs2 rs1 : Reg) (imm : BitVec 12) (s : State) : Result :=
  s.storeX rs2 rs1 imm 2 (.sh rs2 rs1 imm)

/-- SW (40_rv32i.md R217): MemWrite(x[rs1] + sext_XLEN(imm), 4, x[rs2][31:0]). -/
def execSw (rs2 rs1 : Reg) (imm : BitVec 12) (s : State) : Result :=
  s.storeX rs2 rs1 imm 4 (.sw rs2 rs1 imm)

end Sys2Proof.Machine
end

