-- ==== Sys2Proof/Machine/MulDiv.lean ====
section
/-! DEFINITION. Integer multiply and divide (42_m.md R270 to R282). -/

namespace Sys2Proof.Machine

/-- MUL (42_m.md R270), at width XLEN. -/
def execMul (rd rs1 rs2 : Reg) (s : State) : Result :=
  s.setX rd (s.xlen.bin aluMul (s.readX rs1) (s.readX rs2)) (.mul rd rs1 rs2)

/-- MULH (42_m.md R271), at width XLEN. -/
def execMulh (rd rs1 rs2 : Reg) (s : State) : Result :=
  s.setX rd (s.xlen.bin aluMulh (s.readX rs1) (s.readX rs2)) (.mulh rd rs1 rs2)

/-- MULHSU (42_m.md R272), at width XLEN. -/
def execMulhsu (rd rs1 rs2 : Reg) (s : State) : Result :=
  s.setX rd (s.xlen.bin aluMulhsu (s.readX rs1) (s.readX rs2)) (.mulhsu rd rs1 rs2)

/-- MULHU (42_m.md R273), at width XLEN. -/
def execMulhu (rd rs1 rs2 : Reg) (s : State) : Result :=
  s.setX rd (s.xlen.bin aluMulhu (s.readX rs1) (s.readX rs2)) (.mulhu rd rs1 rs2)

/-- DIV (42_m.md R274), at width XLEN. -/
def execDiv (rd rs1 rs2 : Reg) (s : State) : Result :=
  s.setX rd (s.xlen.bin aluDiv (s.readX rs1) (s.readX rs2)) (.div rd rs1 rs2)

/-- DIVU (42_m.md R275), at width XLEN. -/
def execDivu (rd rs1 rs2 : Reg) (s : State) : Result :=
  s.setX rd (s.xlen.bin aluDivu (s.readX rs1) (s.readX rs2)) (.divu rd rs1 rs2)

/-- REM (42_m.md R276), at width XLEN. -/
def execRem (rd rs1 rs2 : Reg) (s : State) : Result :=
  s.setX rd (s.xlen.bin aluRem (s.readX rs1) (s.readX rs2)) (.rem rd rs1 rs2)

/-- REMU (42_m.md R277), at width XLEN. -/
def execRemu (rd rs1 rs2 : Reg) (s : State) : Result :=
  s.setX rd (s.xlen.bin aluRemu (s.readX rs1) (s.readX rs2)) (.remu rd rs1 rs2)

/-- MULW (42_m.md R278), on the low 32 bits, sign-extended. -/
def execMulw (rd rs1 rs2 : Reg) (s : State) : Result :=
  s.setX rd (wordOp (aluMul 32) (s.readX rs1) (s.readX rs2)) (.mulw rd rs1 rs2)

/-- DIVW (42_m.md R279), on the low 32 bits, sign-extended. -/
def execDivw (rd rs1 rs2 : Reg) (s : State) : Result :=
  s.setX rd (wordOp (aluDiv 32) (s.readX rs1) (s.readX rs2)) (.divw rd rs1 rs2)

/-- DIVUW (42_m.md R280), on the low 32 bits, sign-extended. -/
def execDivuw (rd rs1 rs2 : Reg) (s : State) : Result :=
  s.setX rd (wordOp (aluDivu 32) (s.readX rs1) (s.readX rs2)) (.divuw rd rs1 rs2)

/-- REMW (42_m.md R281), on the low 32 bits, sign-extended. -/
def execRemw (rd rs1 rs2 : Reg) (s : State) : Result :=
  s.setX rd (wordOp (aluRem 32) (s.readX rs1) (s.readX rs2)) (.remw rd rs1 rs2)

/-- REMUW (42_m.md R282), on the low 32 bits, sign-extended. -/
def execRemuw (rd rs1 rs2 : Reg) (s : State) : Result :=
  s.setX rd (wordOp (aluRemu 32) (s.readX rs1) (s.readX rs2)) (.remuw rd rs1 rs2)

end Sys2Proof.Machine
end

