-- ==== Sys2Proof/Machine/Rv64i.lean ====
section
/-! DEFINITION. The RV64I additions (41_rv64i.md R250 to R264). They exist only when XLEN = 64 (30_encoding.md R140), which the
decoder checks. -/

namespace Sys2Proof.Machine

/-- LWU (41_rv64i.md R250): x[rd] <- zext_64(MemRead(x[rs1] + sext_64(imm), 4)). -/
def execLwu (rd rs1 : Reg) (imm : BitVec 12) (s : State) : Result :=
  s.loadX rd rs1 imm 4 id (.lwu rd rs1 imm)

/-- LD (41_rv64i.md R251): x[rd] <- MemRead(x[rs1] + sext_64(imm), 8). -/
def execLd (rd rs1 : Reg) (imm : BitVec 12) (s : State) : Result :=
  s.loadX rd rs1 imm 8 id (.ld rd rs1 imm)

/-- SD (41_rv64i.md R252): MemWrite(x[rs1] + sext_64(imm), 8, x[rs2]). -/
def execSd (rs2 rs1 : Reg) (imm : BitVec 12) (s : State) : Result :=
  s.storeX rs2 rs1 imm 8 (.sd rs2 rs1 imm)

/-- SLLI (41_rv64i.md R253): x[rd] <- x[rs1] << shamt. -/
def execSlli (rd rs1 : Reg) (shamt : BitVec 6) (s : State) : Result :=
  s.setX rd (s.xlen.bin aluSll (s.readX rs1) (shamt.setWidth 64)) (.slli rd rs1 shamt)

/-- SRLI (41_rv64i.md R254): x[rd] <- x[rs1] >>u shamt. -/
def execSrli (rd rs1 : Reg) (shamt : BitVec 6) (s : State) : Result :=
  s.setX rd (s.xlen.bin aluSrl (s.readX rs1) (shamt.setWidth 64)) (.srli rd rs1 shamt)

/-- SRAI (41_rv64i.md R255): x[rd] <- x[rs1] >>s shamt. -/
def execSrai (rd rs1 : Reg) (shamt : BitVec 6) (s : State) : Result :=
  s.setX rd (s.xlen.bin aluSra (s.readX rs1) (shamt.setWidth 64)) (.srai rd rs1 shamt)

/-- ADDIW (41_rv64i.md R256): x[rd] <- sext_64((x[rs1] + sext_64(imm))[31:0]). -/
def execAddiw (rd rs1 : Reg) (imm : BitVec 12) (s : State) : Result :=
  s.setX rd (wordOp (aluAdd 32) (s.readX rs1) (s.imm imm)) (.addiw rd rs1 imm)

/-- SLLIW (41_rv64i.md R257): x[rd] <- sext_64(x[rs1][31:0] << shamt). -/
def execSlliw (rd rs1 : Reg) (shamt : BitVec 5) (s : State) : Result :=
  s.setX rd (wordOp (aluSll 32) (s.readX rs1) (shamt.setWidth 64)) (.slliw rd rs1 shamt)

/-- SRLIW (41_rv64i.md R258): x[rd] <- sext_64(x[rs1][31:0] >>u shamt). -/
def execSrliw (rd rs1 : Reg) (shamt : BitVec 5) (s : State) : Result :=
  s.setX rd (wordOp (aluSrl 32) (s.readX rs1) (shamt.setWidth 64)) (.srliw rd rs1 shamt)

/-- SRAIW (41_rv64i.md R259): x[rd] <- sext_64(x[rs1][31:0] >>s shamt). -/
def execSraiw (rd rs1 : Reg) (shamt : BitVec 5) (s : State) : Result :=
  s.setX rd (wordOp (aluSra 32) (s.readX rs1) (shamt.setWidth 64)) (.sraiw rd rs1 shamt)

/-- ADDW (41_rv64i.md R260): x[rd] <- sext_64 of the low 32 bits of x[rs1] + x[rs2]. -/
def execAddw (rd rs1 rs2 : Reg) (s : State) : Result :=
  s.setX rd (wordOp (aluAdd 32) (s.readX rs1) (s.readX rs2)) (.addw rd rs1 rs2)

/-- SUBW (41_rv64i.md R261): x[rd] <- sext_64 of the low 32 bits of x[rs1] - x[rs2]. -/
def execSubw (rd rs1 rs2 : Reg) (s : State) : Result :=
  s.setX rd (wordOp (aluSub 32) (s.readX rs1) (s.readX rs2)) (.subw rd rs1 rs2)

/-- SLLW (41_rv64i.md R262): x[rd] <- sext_64 of the low 32 bits of x[rs1] << x[rs2][4:0]. -/
def execSllw (rd rs1 rs2 : Reg) (s : State) : Result :=
  s.setX rd (wordOp (aluSll 32) (s.readX rs1) (s.readX rs2)) (.sllw rd rs1 rs2)

/-- SRLW (41_rv64i.md R263): x[rd] <- sext_64 of the low 32 bits of x[rs1] >>u x[rs2][4:0]. -/
def execSrlw (rd rs1 rs2 : Reg) (s : State) : Result :=
  s.setX rd (wordOp (aluSrl 32) (s.readX rs1) (s.readX rs2)) (.srlw rd rs1 rs2)

/-- SRAW (41_rv64i.md R264): x[rd] <- sext_64 of the low 32 bits of x[rs1] >>s x[rs2][4:0]. -/
def execSraw (rd rs1 rs2 : Reg) (s : State) : Result :=
  s.setX rd (wordOp (aluSra 32) (s.readX rs1) (s.readX rs2)) (.sraw rd rs1 rs2)

end Sys2Proof.Machine
end

