-- ==== Sys2Proof/Machine/System.lean ====
section
/-! DEFINITION. FENCE, FENCE.I, ECALL, EBREAK and the CSR instructions (40_rv32i.md R237 to R246). -/

namespace Sys2Proof.Machine

/-- A CSR instruction (40_rv32i.md R241 to R246): a CSR that is not held stops it; the old value is zero-extended into rd;
the new value is written where one is given. -/
def State.csrOp (s : State) (rd : Reg) (csr : BitVec 12) (new : Word → Option Word) (i : Instr) : Result :=
  match s.readCsr csr with
  | none => .fault .csrNotHeld
  | some t =>
    match new t with
    | none => .next ((s.writeX rd t).retire i)
    | some v => .next (((s.writeCsr csr v).writeX rd t).retire i)

/-- FENCE (40_rv32i.md R237): no register or memory effect; the instance in the stream is the fence (20_memory.md R84). -/
def execFence (fm pred succ : BitVec 4) (rs1 rd : Reg) (s : State) : Result :=
  .next (s.retire (.fence fm pred succ rs1 rd))

/-- FENCE.I (40_rv32i.md R238): no effect in the model (92_eei_decisions.md D9). DESIGN CHOICE (log 27): with reserved field
values too. -/
def execFenceI (imm : BitVec 12) (rs1 rd : Reg) (s : State) : Result :=
  .next (s.retire (.fenceI imm rs1 rd))

/-- ECALL (40_rv32i.md R239): the hart's stream ends here (60_exceptions.md R412). -/
def execEcall (s : State) : Result :=
  .next (s.retireLast .ecall)

/-- EBREAK (40_rv32i.md R240): the hart's stream ends here (60_exceptions.md R412). -/
def execEbreak (s : State) : Result :=
  .next (s.retireLast .ebreak)

/-- CSRRW (40_rv32i.md R241): csr[csr] <- x[rs1]; x[rd] gets the old value. -/
def execCsrrw (rd : Reg) (csr : BitVec 12) (rs1 : Reg) (s : State) : Result :=
  s.csrOp rd csr (fun _ => some (s.readX rs1)) (.csrrw rd csr rs1)

/-- CSRRS (40_rv32i.md R242): if rs1 != 0 then csr[csr] <- t | x[rs1]. -/
def execCsrrs (rd : Reg) (csr : BitVec 12) (rs1 : Reg) (s : State) : Result :=
  s.csrOp rd csr (fun t => if rs1 = 0 then none else some (t ||| s.readX rs1)) (.csrrs rd csr rs1)

/-- CSRRC (40_rv32i.md R243): if rs1 != 0 then csr[csr] <- t & ~x[rs1]. -/
def execCsrrc (rd : Reg) (csr : BitVec 12) (rs1 : Reg) (s : State) : Result :=
  s.csrOp rd csr (fun t => if rs1 = 0 then none else some (t &&& ~~~s.readX rs1)) (.csrrc rd csr rs1)

/-- CSRRWI (40_rv32i.md R244): csr[csr] <- zext_XLEN(uimm). -/
def execCsrrwi (rd : Reg) (csr : BitVec 12) (uimm : BitVec 5) (s : State) : Result :=
  s.csrOp rd csr (fun _ => some (uimm.setWidth 64)) (.csrrwi rd csr uimm)

/-- CSRRSI (40_rv32i.md R245): if uimm != 0 then csr[csr] <- t | zext_XLEN(uimm). -/
def execCsrrsi (rd : Reg) (csr : BitVec 12) (uimm : BitVec 5) (s : State) : Result :=
  s.csrOp rd csr (fun t => if uimm = 0 then none else some (t ||| uimm.setWidth 64)) (.csrrsi rd csr uimm)

/-- CSRRCI (40_rv32i.md R246): if uimm != 0 then csr[csr] <- t & ~zext_XLEN(uimm). -/
def execCsrrci (rd : Reg) (csr : BitVec 12) (uimm : BitVec 5) (s : State) : Result :=
  s.csrOp rd csr (fun t => if uimm = 0 then none else some (t &&& ~~~(uimm.setWidth 64))) (.csrrci rd csr uimm)

end Sys2Proof.Machine
end

