-- ==== Sys2Proof/Machine/Fetch.lean ====
section
/-! DEFINITION. Fetching an instruction and one turn of a hart (70_reset_and_hazards.md R431, 20_memory.md R108,
60_exceptions.md R401, R409, R412). -/

namespace Sys2Proof.Machine

/-- At most n bytes of program text from an address on: what INIT_MEM lists, as far as it lists every byte and the address
space goes (log 7). Fetch is no memory operation (20_memory.md R108). DESIGN CHOICE (log 28): REGION is not asked, so text may lie
in io bytes. DESIGN CHOICE (log 30): the words of a program that runs past the top of the address space are not reached. -/
def State.textBytes (s : State) (a : Nat) : (n : Nat) → List Byte
  | 0 => []
  | n + 1 =>
    if a < s.xlen.size then
      match Sparse.get? (α := Byte) s.params.init a with
      | some b => b :: s.textBytes (a + 1) n
      | none => []
    else []

/-- Whether a store has written one of n bytes from a on. -/
def State.written (s : State) (a n : Nat) : Bool := (List.range n).any (fun k => (s.mem.at? (a + k)).isSome)

/-- The condition of 60_exceptions.md R401 that a decoding error is. -/
def stopOfDecode : DecodeError → Stop
  | .truncated => .fault .noInstruction
  | .compressed => .refused .compressed
  | .noRow => .fault .noInstruction
  | .notPresent => .fault .noInstruction

/-- The instruction at pc, or what stops the run there: text that a store has written (20_memory.md R108), or no
instruction. DESIGN CHOICE (log 23): an ENTRY(h) that is no multiple of 4, or of 2 with compressed instructions, is no
condition of 60_exceptions.md R401, so the four bytes at pc are fetched wherever pc is. DESIGN CHOICE (log 25): so are those at
an address outside the hart's own program. DESIGN CHOICE (log 28): so are those in an io region. -/
def State.fetch (s : State) : Except Stop Instr :=
  if s.written s.pc.toNat 4 then .error (.fault .storeToText)
  else
    match decodeBytes s.xlen s.params.ext (s.textBytes s.pc.toNat 4) with
    | .ok r => .ok r.1
    | .error d => .error (stopOfDecode d)

/-- The state with the four bytes at pc noted as fetched (20_memory.md R108). -/
def State.noteFetch (s : State) : State :=
  let a := s.pc.toNat
  { s with fetched := insertNat a (insertNat (a + 1) (insertNat (a + 2) (insertNat (a + 3) s.fetched))) }

/-- pc is past the last instruction of the hart's program (92_eei_decisions.md D27): at the address right after it. DESIGN
CHOICE (log 25): a jump to that address ends the stream as running on to it does, and a jump to any other address outside the
program does not; the bytes that INIT_MEM lists there are fetched (`State.fetch`). DESIGN CHOICE (log 30): the address after a
program that runs past the top of the address space is taken modulo 2^XLEN. DESIGN CHOICE (log 31): of a program that fills the
whole address space that address is ENTRY, so the stream ends before its first word runs. -/
def State.atEnd (s : State) : Bool := s.pc.toNat = (s.hart.entry + 4 * s.hart.len) % s.xlen.size

/-- The next hart has its turn when a hart's turn leaves a state. -/
def yieldResult (r : Result) : Result :=
  match r with
  | .next t => .next t.yield
  | .fault f => .fault f
  | .refused q => .refused q

/-- One turn of the hart whose turn it is. A hart whose stream has ended produces nothing (60_exceptions.md R409); past its
last instruction the stream ends (D27); else the instruction at pc runs. -/
def State.turn (s : State) : Result :=
  if s.hart.ended then .next s
  else if s.atEnd then .next s.endStream
  else
    match s.fetch with
    | .error st => st.result
    | .ok i => exec i s.noteFetch

/-- The bytes of INIT_MEM with some listed from an address on, in place of what was listed there (log 29). -/
def listBytes : List Host.Cell → Nat → List Byte → List Host.Cell
  | m, _, [] => m
  | m, a, b :: bs => listBytes (Sparse.put (α := Byte) m a b) (a + 1) bs

/-- A one-word program for the hart whose turn it is, at its pc (log 7): the word is listed text that no store has written,
and the program is that word. -/
def State.placeWord (s : State) (w : Nat) : State :=
  { s with
    params := { s.params with init := listBytes s.params.init s.pc.toNat (wordBytes w) }
    mem := s.mem.forget s.pc.toNat 4
    hart := { s.hart with entry := s.pc.toNat, len := 1, ended := false } }

end Sys2Proof.Machine
end

