-- ==== Sys2Proof/Machine/Step.lean ====
section
/-! DEFINITION. One step of the machine, and the placing of an instruction where the next step fetches. -/

namespace Sys2Proof.Machine

/-- One step: a turn of the hart whose turn it is, after which the next hart has its turn (log 9). -/
def step (s : State) : Host.Outcome State Fault Refusal := yieldResult s.turn

/-- The state with an instruction whose bits are w, the bits above nbits zero, where the next step fetches (log 7). -/
def State.withFetchWord (s : State) (nbits w : Nat) : State := s.placeWord (w % 2 ^ nbits)

end Sys2Proof.Machine
end

