-- ==== Sys2Proof/Machine/Rvwmo.lean ====
section
/-! DEFINITION. The memory model (20_memory.md): executions, program order, syntactic dependencies, preserved program order,
the axioms and legality. Nothing here is state: these are relations over a finished history (10_state.md R34, R35). -/

namespace Sys2Proof.Machine

/-! ### Executions -/

/-- The instruction at a position of a stream given newest first. -/
def streamAt (l : List Instance) (p : Nat) : Option Instance :=
  if p < l.length then l[l.length - 1 - p]? else none

/-- A candidate execution (20_memory.md R66): the memory operations of all harts, the dynamic stream of each hart, finite or
infinite, and INIT_MEM. -/
structure Execution where
  /-- the memory operations -/
  ops : MemOp → Prop
  /-- the instance at a position of a hart's dynamic stream -/
  inst : Nat → Nat → Option Instance
  /-- which bytes are main memory (10_state.md R32) -/
  main : Nat → Prop
  /-- INIT_MEM -/
  init : Nat → Byte

/-- An element of the global memory order (20_memory.md R51, R99): the initial store of a byte, or a memory operation. -/
inductive Event where
  /-- Init(x) (20_memory.md R99) -/
  | init (x : Nat)
  /-- a memory operation -/
  | op (o : MemOp)
  deriving DecidableEq, Repr

/-- x is one of the bytes of an operation. -/
def MemOp.has (o : MemOp) (x : Nat) : Prop := o.addr ≤ x ∧ x < o.addr + o.len

/-- The event belongs to the execution. -/
def Execution.event (E : Execution) : Event → Prop
  | .init x => E.main x
  | .op o => E.ops o

/-- The event is a store to byte x. -/
def Event.writes (e : Event) (x : Nat) : Prop :=
  match e with
  | .init y => y = x
  | .op o => o.isStore = true ∧ o.has x

/-- The value a store writes to byte x. -/
def Execution.written (E : Execution) (e : Event) (x : Nat) : Option Byte :=
  match e with
  | .init y => some (E.init y)
  | .op o => o.stored[x - o.addr]?

/-- The value a load returns for byte x. -/
def MemOp.returned (o : MemOp) (x : Nat) : Option Byte := o.loaded[x - o.addr]?

/-- Program order (20_memory.md R53): one hart, by the positions of the instructions. -/
def po (a b : MemOp) : Prop := a.hart = b.hart ∧ a.inst < b.inst

/-- Program order between events: an initial store is unrelated to everything (20_memory.md R99). -/
def poEvent (e : Event) (b : MemOp) : Prop :=
  match e with
  | .init _ => False
  | .op a => po a b

/-! ### Syntactic dependencies (20_memory.md R67 to R79) -/

/-- "Instruction j has a syntactic dependency on instruction i via destination register s of i and source register r of j"
(20_memory.md R73), for the instructions of hart h. -/
inductive Execution.SynDep (E : Execution) (h : Nat) : (i : Nat) → (s : DepUnit) → (j : Nat) → (r : DepUnit) → Prop where
  /-- clause (1): s is r, and no instruction between i and j has r as a destination register -/
  | direct {i j : Nat} {m n : Instance} {r : DepUnit} :
      i < j → E.inst h i = some m → E.inst h j = some n → r ∈ m.listing.destinations → r ∈ n.listing.sources →
      (∀ k c, i < k → k < j → E.inst h k = some c → r ∉ c.listing.destinations) → SynDep E h i r j r
  /-- clause (2): by way of an instruction m between i and j that carries a dependency from p to q -/
  | via {i j m : Nat} {c : Instance} {s p q r : DepUnit} :
      SynDep E h m q j r → SynDep E h i s m p → E.inst h m = some c → p ∈ c.listing.carriers q → SynDep E h i s j r

/-- Instruction j has a syntactic dependency on instruction i via source register r (20_memory.md R73). -/
def Execution.depends (E : Execution) (h i j : Nat) (r : DepUnit) : Prop := ∃ s, E.SynDep h i s j r

/-- b has a syntactic address dependency on a (20_memory.md R74). -/
def Execution.addrDep (E : Execution) (a b : MemOp) : Prop :=
  a.hart = b.hart ∧ ∃ n r, E.inst b.hart b.inst = some n ∧ r ∈ n.listing.addr ∧ E.depends b.hart a.inst b.inst r

/-- b has a syntactic data dependency on a (20_memory.md R75). -/
def Execution.dataDep (E : Execution) (a b : MemOp) : Prop :=
  a.hart = b.hart ∧ b.isStore = true ∧
    ∃ n r, E.inst b.hart b.inst = some n ∧ r ∈ n.listing.data ∧ E.depends b.hart a.inst b.inst r

/-- b has a syntactic control dependency on a (20_memory.md R76): a branch or indirect jump between them has a syntactic
dependency on the instruction of a. -/
def Execution.ctrlDep (E : Execution) (a b : MemOp) : Prop :=
  a.hart = b.hart ∧
    ∃ m n r, a.inst < m ∧ m < b.inst ∧ E.inst b.hart m = some n ∧ n.listing.control = true ∧ E.depends b.hart a.inst m r

/-- Instruction i of hart h is an LR, j an SC, and they are paired (20_memory.md R59): no LR or SC stands between them. -/
def Execution.paired (E : Execution) (h i j : Nat) : Prop :=
  i < j ∧ ∃ m n, E.inst h i = some m ∧ E.inst h j = some n ∧ m.listing.role = .lr ∧ n.listing.role = .sc ∧
    ∀ k c, i < k → k < j → E.inst h k = some c → c.listing.role = .none

/-- The operations r and w are a paired load and store (20_memory.md R59). -/
def Execution.pairedOps (E : Execution) (r w : MemOp) : Prop :=
  r.isLoad = true ∧ w.isStore = true ∧ r.hart = w.hart ∧ E.paired r.hart r.inst w.inst

/-! ### Fences (20_memory.md R84) -/

/-- The FENCE is FENCE.TSO: fm = 1000, pred = succ = RW, and the reserved fields are zero. -/
def isTso (fm pred succ : BitVec 4) (rs1 rd : Reg) : Bool :=
  decide (fm = 0b1000 ∧ pred = 0b0011 ∧ succ = 0b0011 ∧ rs1 = 0 ∧ rd = 0)

/-- The operation is in the set with these bits {I, O, R, W}: I and O select nothing in main memory. -/
def inFenceSet (set : BitVec 4) (o : MemOp) : Bool := (o.isLoad && set.getLsbD 1) || (o.isStore && set.getLsbD 0)

/-- The instruction, if it is a FENCE, orders a before b (20_memory.md R84). DESIGN CHOICE (log 22): a FENCE with fm = 1000
whose sets are not both RW, for which R84, 40_rv32i.md R237 and 92_eei_decisions.md D5 name no meaning, orders as fm = 0000
does. -/
def fenceOrders (i : Instr) (a b : MemOp) : Bool :=
  match i with
  | .fence fm pred succ rs1 rd =>
    if isTso fm pred succ rs1 rd then a.isLoad || (a.isStore && b.isStore)
    else inFenceSet pred a && inFenceSet succ b
  | _ => false

/-! ### Annotations (20_memory.md R61) -/

/-- an acquire annotation -/
def Annot.acquire (x : Annot) : Bool := x.acqRCpc || x.acqRCsc
/-- a release annotation -/
def Annot.release (x : Annot) : Bool := x.relRCpc || x.relRCsc
/-- an RCsc annotation -/
def Annot.rcsc (x : Annot) : Bool := x.acqRCsc || x.relRCsc

/-! ### Which store a load returns (20_memory.md R94) -/

/-- e is in Cand(i, x): a store to x that precedes i in the global memory order or in program order. -/
def Execution.cand (E : Execution) (gmo : Event → Event → Prop) (i : MemOp) (x : Nat) (e : Event) : Prop :=
  E.event e ∧ e.writes x ∧ (gmo e (.op i) ∨ poEvent e i)

/-- e is W(i, x), the latest of Cand(i, x): "i returns for x the value written by e". -/
def Execution.rf (E : Execution) (gmo : Event → Event → Prop) (e : Event) (i : MemOp) (x : Nat) : Prop :=
  E.cand gmo i x e ∧ ∀ c, E.cand gmo i x c → c = e ∨ gmo c e

/-! ### Preserved program order (20_memory.md R80 to R93) -/

/-- PPO rule 1 (R81): b is a store, and the addresses overlap. -/
def ppo1 (a b : MemOp) : Prop := b.isStore = true ∧ ∃ x, a.has x ∧ b.has x

/-- PPO rule 2 (R82): two loads of a byte with no store to it between them, that return values of different stores. -/
def Execution.ppo2 (E : Execution) (gmo : Event → Event → Prop) (a b : MemOp) : Prop :=
  a.isLoad = true ∧ b.isLoad = true ∧ ∃ x, a.has x ∧ b.has x ∧
    (¬ ∃ m, E.ops m ∧ m.isStore = true ∧ m.has x ∧ po a m ∧ po m b) ∧
    ∃ e f, E.rf gmo e a x ∧ E.rf gmo f b x ∧ e ≠ f

/-- PPO rule 3 (R83): a is generated by an AMO or SC, and the load b returns a value written by a. -/
def Execution.ppo3 (E : Execution) (gmo : Event → Event → Prop) (a b : MemOp) : Prop :=
  a.fromAMOorSC = true ∧ b.isLoad = true ∧ ∃ x, b.has x ∧ E.rf gmo (.op a) b x

/-- PPO rule 4 (R84): a FENCE between them orders a before b. -/
def Execution.ppo4 (E : Execution) (a b : MemOp) : Prop :=
  ∃ k n, a.inst < k ∧ k < b.inst ∧ E.inst a.hart k = some n ∧ fenceOrders n.instr a b = true

/-- PPO rule 5 (R85): a has an acquire annotation. -/
def ppo5 (a _b : MemOp) : Prop := a.annot.acquire = true
/-- PPO rule 6 (R86): b has a release annotation. -/
def ppo6 (_a b : MemOp) : Prop := b.annot.release = true
/-- PPO rule 7 (R87): both have RCsc annotations. -/
def ppo7 (a b : MemOp) : Prop := a.annot.rcsc = true ∧ b.annot.rcsc = true
/-- PPO rule 8 (R88): a is paired with b. -/
def Execution.ppo8 (E : Execution) (a b : MemOp) : Prop := E.pairedOps a b
/-- PPO rule 9 (R89): a syntactic address dependency. -/
def Execution.ppo9 (E : Execution) (a b : MemOp) : Prop := E.addrDep a b
/-- PPO rule 10 (R90): a syntactic data dependency. -/
def Execution.ppo10 (E : Execution) (a b : MemOp) : Prop := E.dataDep a b
/-- PPO rule 11 (R91): b is a store with a syntactic control dependency on a. -/
def Execution.ppo11 (E : Execution) (a b : MemOp) : Prop := b.isStore = true ∧ E.ctrlDep a b

/-- PPO rule 12 (R92): the load b returns a value of a store m between them that has an address or data dependency on a. -/
def Execution.ppo12 (E : Execution) (gmo : Event → Event → Prop) (a b : MemOp) : Prop :=
  b.isLoad = true ∧ ∃ m, E.ops m ∧ m.isStore = true ∧ po a m ∧ po m b ∧ (E.addrDep a m ∨ E.dataDep a m) ∧
    ∃ x, b.has x ∧ E.rf gmo (.op m) b x

/-- PPO rule 13 (R93): b is a store, and an operation m between them has an address dependency on a. -/
def Execution.ppo13 (E : Execution) (a b : MemOp) : Prop :=
  b.isStore = true ∧ ∃ m, E.ops m ∧ po a m ∧ po m b ∧ E.addrDep a m

/-- Preserved program order (20_memory.md R80): program order, both in main memory, and one of the thirteen rules. -/
def Execution.ppo (E : Execution) (gmo : Event → Event → Prop) (a b : MemOp) : Prop :=
  po a b ∧ a.region = .main ∧ b.region = .main ∧
    (ppo1 a b ∨ E.ppo2 gmo a b ∨ E.ppo3 gmo a b ∨ E.ppo4 a b ∨ ppo5 a b ∨ ppo6 a b ∨ ppo7 a b ∨ E.ppo8 a b ∨
      E.ppo9 a b ∨ E.ppo10 a b ∨ E.ppo11 a b ∨ E.ppo12 gmo a b ∨ E.ppo13 a b)

/-! ### The axioms and legality (20_memory.md R94 to R97) -/

/-- A global memory order (R51): a strict total order on the events of the execution. -/
structure Execution.StrictOrder (E : Execution) (gmo : Event → Event → Prop) : Prop where
  irrefl : ∀ e, E.event e → ¬ gmo e e
  trans : ∀ e f g, E.event e → E.event f → E.event g → gmo e f → gmo f g → gmo e g
  total : ∀ e f, E.event e → E.event f → e = f ∨ gmo e f ∨ gmo f e

/-- The load value axiom (R94): each byte of each load returns the value of W(i, x). -/
def Execution.LoadValue (E : Execution) (gmo : Event → Event → Prop) : Prop :=
  ∀ i, E.ops i → i.isLoad = true → ∀ x, i.has x → ∃ e, E.rf gmo e i x ∧ i.returned x = E.written e x

/-- The atomicity axiom (R95). -/
def Execution.Atomicity (E : Execution) (gmo : Event → Event → Prop) : Prop :=
  ∀ r w, E.ops r → E.ops w → E.pairedOps r w → aligned r.addr r.len = true → aligned w.addr w.len = true →
    ∀ x, r.has x → ∀ s, E.rf gmo s r x →
      gmo s (.op w) ∧
      ¬ ∃ t, E.ops t ∧ t.isStore = true ∧ t.has x ∧ t.hart ≠ r.hart ∧ gmo s (.op t) ∧ gmo (.op t) (.op w)

/-- The progress axiom (R96): no operation has infinitely many operations before it. -/
def Execution.Progress (E : Execution) (gmo : Event → Event → Prop) : Prop :=
  ∀ b, E.ops b → Set.Finite {a | E.ops a ∧ gmo (.op a) (.op b)}

/-- The order is a witness that the execution is legal: clauses (i) to (v) of 20_memory.md R97. -/
structure Execution.LegalWith (E : Execution) (gmo : Event → Event → Prop) : Prop where
  order : E.StrictOrder gmo
  initFirst : ∀ x o, E.main x → E.ops o → gmo (.init x) (.op o)
  preserved : ∀ a b, E.ops a → E.ops b → E.ppo gmo a b → gmo (.op a) (.op b)
  loadValue : E.LoadValue gmo
  atomicity : E.Atomicity gmo
  progress : E.Progress gmo

/-- The execution obeys RVWMO (20_memory.md R97). -/
def Execution.Legal (E : Execution) : Prop := ∃ gmo, E.LegalWith gmo

/-- A final value of byte x (20_memory.md R98, 92_eei_decisions.md D23): that of the last store to x in a global memory order
that admits the run. -/
def Execution.FinalByte (E : Execution) (x : Nat) (v : Byte) : Prop :=
  ∃ gmo, E.LegalWith gmo ∧ ∃ e, E.event e ∧ e.writes x ∧
    (∀ f, E.event f → f.writes x → f = e ∨ gmo f e) ∧ E.written e x = some v

/-! ### The execution of a state -/

/-- The harts of a state. -/
def State.harts (s : State) : List Hart := s.hart :: s.others

/-- The execution a run has performed so far: the recorded history and the streams of its harts (20_memory.md R98). -/
def State.execution (s : State) : Execution :=
  { ops := fun o => o ∈ s.history
    inst := fun h p => (s.harts.find? (fun t => t.id == h)).bind (fun t => streamAt t.stream p)
    main := fun x => x < s.xlen.size ∧ regionOf s.params x = .main
    init := initByteOf s.params }

/-- The run so far is admitted (20_memory.md R98). -/
def State.Admitted (s : State) : Prop := s.execution.Legal

end Sys2Proof.Machine
end

