-- ==== Sys2Proof/Machine/Check.lean ====
section
/-! DEFINITION. A check that a listed global memory order admits a finite run, by the dependency walk of 20_memory.md R78: what
a model that runs programs does at the end of a run (R98). -/

namespace Sys2Proof.Machine

/-- x is one of the bytes of an operation. -/
def MemOp.hasB (o : MemOp) (x : Nat) : Bool := decide (o.addr ≤ x ∧ x < o.addr + o.len)

/-- The bytes of an operation. -/
def MemOp.bytes (o : MemOp) : List Nat := (List.range o.len).map (fun k => o.addr + k)

/-- Program order. -/
def poB (a b : MemOp) : Bool := decide (a.hart = b.hart ∧ a.inst < b.inst)

/-- The stream of a hart, newest first. -/
def State.streamOf (s : State) (h : Nat) : List Instance :=
  match s.harts.find? (fun t => t.id == h) with
  | some t => t.stream
  | none => []

/-- The dependency bookkeeping just before the instruction at a position. -/
def depsBefore (l : List Instance) (p : Nat) : DepState := walkAll (l.drop (l.length - p))

/-- b has a syntactic address dependency on a. -/
def State.addrDepB (s : State) (a b : MemOp) : Bool :=
  decide (a.hart = b.hart) &&
    match streamAt (s.streamOf b.hart) b.inst with
    | some n => decide (a.inst ∈ (depsBefore (s.streamOf b.hart) b.inst).ofAll n.listing.addr)
    | none => false

/-- b has a syntactic data dependency on a. -/
def State.dataDepB (s : State) (a b : MemOp) : Bool :=
  decide (a.hart = b.hart) && b.isStore &&
    match streamAt (s.streamOf b.hart) b.inst with
    | some n => decide (a.inst ∈ (depsBefore (s.streamOf b.hart) b.inst).ofAll n.listing.data)
    | none => false

/-- b has a syntactic control dependency on a. -/
def State.ctrlDepB (s : State) (a b : MemOp) : Bool :=
  decide (a.hart = b.hart) && decide (a.inst ∈ (depsBefore (s.streamOf b.hart) b.inst).ctrl)

/-- The LR that the SC at a position is paired with: the nearest LR or SC before it, if it is an LR. -/
def pairedWithB (l : List Instance) (j : Nat) : Option Nat :=
  match (List.range j).reverse.find? (fun k => match streamAt l k with | some n => n.listing.role != .none | none => false) with
  | some k => match streamAt l k with | some n => if n.listing.role = .lr then some k else none | none => none
  | none => none

/-- r and w are a paired load and store. -/
def State.pairedB (s : State) (r w : MemOp) : Bool :=
  r.isLoad && w.isStore && decide (r.hart = w.hart) &&
    match streamAt (s.streamOf w.hart) w.inst with
    | some n => decide (n.listing.role = .sc) && decide (pairedWithB (s.streamOf w.hart) w.inst = some r.inst)
    | none => false

/-- A FENCE between them orders a before b. -/
def State.fencedB (s : State) (a b : MemOp) : Bool :=
  (List.range b.inst).any (fun k => decide (a.inst < k) &&
    match streamAt (s.streamOf a.hart) k with
    | some n => fenceOrders n.instr a b
    | none => false)

/-- a stands before b in the order. -/
def before (order : List MemOp) (a b : MemOp) : Bool := decide (order.idxOf a < order.idxOf b)

/-- W(i, x): the last store to x in the order that precedes i in the order or in program order; none is the initial
store. -/
def latest (order : List MemOp) (i : MemOp) (x : Nat) : Option MemOp :=
  (order.filter (fun o => o.isStore && o.hasB x && (before order o i || poB o i))).getLast?

/-- a precedes b in preserved program order, for operations of main memory. -/
def State.ppoB (s : State) (order : List MemOp) (a b : MemOp) : Bool :=
  poB a b && decide (a.region = .main) && decide (b.region = .main) &&
  ((b.isStore && a.bytes.any (fun x => b.hasB x))
    || (a.isLoad && b.isLoad && a.bytes.any (fun x => b.hasB x &&
          !order.any (fun m => m.isStore && m.hasB x && poB a m && poB m b) &&
          decide (latest order a x ≠ latest order b x)))
    || (a.fromAMOorSC && b.isLoad && b.bytes.any (fun x => decide (latest order b x = some a)))
    || s.fencedB a b
    || a.annot.acquire
    || b.annot.release
    || (a.annot.rcsc && b.annot.rcsc)
    || s.pairedB a b
    || s.addrDepB a b
    || s.dataDepB a b
    || (b.isStore && s.ctrlDepB a b)
    || (b.isLoad && order.any (fun m => m.isStore && poB a m && poB m b && (s.addrDepB a m || s.dataDepB a m) &&
          b.bytes.any (fun x => decide (latest order b x = some m))))
    || (b.isStore && order.any (fun m => poB a m && poB m b && s.addrDepB a m)))

/-- The load value axiom for one load. -/
def State.loadValueB (s : State) (order : List MemOp) (i : MemOp) : Bool :=
  i.bytes.all (fun x =>
    match latest order i x with
    | some o => decide (i.loaded[x - i.addr]? = o.stored[x - o.addr]?)
    | none => decide (i.loaded[x - i.addr]? = some (initByteOf s.params x)))

/-- The atomicity axiom for one pair. -/
def State.atomicB (s : State) (order : List MemOp) (r w : MemOp) : Bool :=
  !(s.pairedB r w && aligned r.addr r.len && aligned w.addr w.len) ||
    r.bytes.all (fun x =>
      (match latest order r x with | some o => before order o w | none => true) &&
      !order.any (fun t => t.isStore && t.hasB x && decide (t.hart ≠ r.hart) && before order t w &&
        (match latest order r x with | some o => before order o t | none => true)))

/-- The listed order, after the initial stores, admits the run: it lists exactly the operations of the history, it respects
preserved program order, and the axioms hold. -/
def State.legalOrderB (s : State) (order : List MemOp) : Bool :=
  order.all (fun o => decide (o ∈ s.history)) && s.history.all (fun o => decide (o ∈ order)) &&
  decide order.Nodup &&
  order.all (fun a => order.all (fun b => !s.ppoB order a b || before order a b)) &&
  order.all (fun i => !i.isLoad || s.loadValueB order i) &&
  order.all (fun r => order.all (fun w => s.atomicB order r w))

/-- Every order of a list. -/
def orders {α : Type} : List α → List (List α)
  | [] => [[]]
  | a :: l => (orders l).flatMap (fun p => (List.range (p.length + 1)).map (fun k => p.take k ++ a :: p.drop k))

/-- Some order of the operations admits the run. -/
def State.admittedB (s : State) : Bool := (orders s.history).any s.legalOrderB

end Sys2Proof.Machine
end

