-- ==== Sys2Proof/Machine/Runs.lean ====
section
/-! DEFINITION. Runs: how one starts with any number of harts (60_exceptions.md R409, 70_reset_and_hazards.md R431), and the
execution a whole run performs, bounded or not (20_memory.md R98, 92_eei_decisions.md D22). -/

namespace Sys2Proof.Machine

/-! ### The start of a run -/

/-- The program of a hart (70_reset_and_hazards.md R431): a finite sequence of instruction words placed at ENTRY(h). -/
structure Program where
  /-- ENTRY(h) -/
  entry : Nat
  /-- the words -/
  words : List (BitVec 32)
  deriving DecidableEq, Repr

/-- The bytes of a program, lowest address first (20_memory.md R100). -/
def Program.bytes (p : Program) : List Byte := p.words.flatMap (fun w => wordBytes w.toNat)

/-- INIT_MEM with the words of some programs listed, each at its ENTRY. DESIGN CHOICE (log 3): where two programs share an
address, the later one's byte stands. DESIGN CHOICE (log 29): where INIT_MEM lists another byte, the program's stands. DESIGN
CHOICE (log 30): words past the top of the address space are listed at addresses that no fetch reaches. -/
def listPrograms (init : List Host.Cell) (ps : List Program) : List Host.Cell :=
  ps.foldl (fun m p => listBytes m p.entry p.bytes) init

/-- The harts of some programs, numbered from n on (10_state.md R20). -/
def startHarts : (n : Nat) → List Program → List Hart
  | _, [] => []
  | n, p :: ps => Hart.start n p.entry p.words.length :: startHarts (n + 1) ps

/-- The start of a run (60_exceptions.md R409, 10_state.md R36): one hart for each program, at least one, numbered 0 to
NHARTS - 1, each at the first instruction of its own program with no memory operation performed. The registers hold zero
(log 1), and hart 0 has the first turn (log 9). -/
def State.start (p : Params) (first : Program) (rest : List Program) (d : Draws) : State :=
  { params := { p with init := listPrograms p.init (first :: rest) }, mem := [], history := [], fetched := [],
    hart := Hart.start 0 first.entry first.words.length, others := startHarts 1 rest, draws := d }

/-! ### The execution of a whole run -/

/-- The states of a run that no stop ends. A run in which every hart has ended goes on with steps that change nothing but
whose turn it is, so the finite runs of 92_eei_decisions.md D22 are among these. -/
def IsRun (r : Nat → State) : Prop := ∀ n, step (r n) = .next (r (n + 1))

/-- The execution of a whole run (20_memory.md R66, R98): every operation that some state of it has recorded, and the whole
stream of each hart. DEDUCED (log 26): the instance at position p of a hart is looked up after (p + 1) rounds of turns, when
every hart has had p + 1 turns, each of which added an instance or found the stream ended. -/
def runExecution (r : Nat → State) : Execution :=
  { ops := fun o => ∃ n, o ∈ (r n).history
    inst := fun h p => (r ((p + 1) * (r 0).harts.length)).execution.inst h p
    main := (r 0).execution.main
    init := (r 0).execution.init }

/-- The run is admitted: `Legal` of its whole history, finite or infinite (20_memory.md R97, R98; 92_eei_decisions.md
D22). -/
def RunAdmitted (r : Nat → State) : Prop := (runExecution r).Legal

/-- A final value of byte x of a run (20_memory.md R98, 92_eei_decisions.md D23). -/
def RunFinalByte (r : Nat → State) (x : Nat) (v : Byte) : Prop := (runExecution r).FinalByte x v

end Sys2Proof.Machine
end

