-- ==== Sys2Proof/Safety.lean ====
section
/-! DEFINITION. What a run is and when it is safe, in the terms statements use. -/

namespace Sys2Proof.Machine

/-- The states a run from s passes through. -/
inductive Reaches : State → State → Prop where
  /-- no step -/
  | here (s : State) : Reaches s s
  /-- one more step -/
  | more {s t u : State} : Reaches s t → step t = .next u → Reaches s u

/-- No run from s stops with a fault or a refusal (60_exceptions.md R400: a stopped run supports no claim). -/
def SafeFrom (s : State) : Prop := ∀ t, Reaches s t → ∃ u, step t = .next u

/-- Every hart has stopped: the run has ended (60_exceptions.md R409). -/
def State.allEnded (s : State) : Bool := s.hart.ended && s.others.all (fun h => h.ended)

end Sys2Proof.Machine
end

