-- ==== Sys2Proof/Certificates/Slice0/Obligations.lean ====
section
/-! DEFINITION. The statements for the provers, and before them the words they are written in: register values as integers,
what an instruction leaves as it was, and the records of memory operations. -/

namespace Sys2Proof.Claims

open Sys2Proof.Machine

/-! ### Values -/

/-- 2^XLEN. -/
def size (s : State) : Int := 2 ^ s.xlen.bits

/-- The integer in -2^(n-1) .. 2^(n-1) - 1 that agrees with v modulo 2^n: the low n bits of v, read as signed. -/
def wrap (n : Nat) (v : Int) : Int := Int.bmod v (2 ^ n)

/-- `x[r]` as an unsigned number. -/
def ux (s : State) (r : Reg) : Int := (s.readX r).toNat

/-- `x[r]` as a signed number. -/
def sx (s : State) (r : Reg) : Int := wrap s.xlen.bits (ux s r)

/-- The low 32 bits of `x[r]` as an unsigned number. -/
def uw (s : State) (r : Reg) : Int := ux s r % 2 ^ 32

/-- The low 32 bits of `x[r]` as a signed number. -/
def sw (s : State) (r : Reg) : Int := wrap 32 (ux s r)

/-- The integer an immediate of some bits stands for in XLEN bits, as an unsigned number. -/
def uimm {n : Nat} (s : State) (v : BitVec n) : Int := v.toInt % size s

/-- 1 or 0. -/
def bit (p : Prop) [Decidable p] : Int := if p then 1 else 0

/-- The value of some bytes, lowest first (20_memory.md R100). -/
def leValue : List Byte → Int
  | [] => 0
  | b :: bs => b.toNat + 256 * leValue bs

/-- Byte k of a number: bits 8k+7..8k (20_memory.md R100). -/
def leByte (v : Int) (k : Nat) : Byte := BitVec.ofInt 8 (v / 256 ^ k)

/-- The n low bytes of a number, lowest first. -/
def leBytes (n : Nat) (v : Int) : List Byte := (List.range n).map (leByte v)

/-! ### What changes and what does not -/

/-- Instruction i gives a next state, and P holds of it. -/
def Runs (i : Instr) (s : State) (P : State → Prop) : Prop := ∃ t, exec i s = .next t ∧ P t

/-- `x[rd] <- v` and no other integer register changes; nothing is written when rd is x0. -/
def XWritten (s t : State) (rd : Reg) (v : Int) : Prop := ∀ r, ux t r = if r = rd ∧ r ≠ 0 then v % size s else ux s r

/-- No integer register changes. -/
def XKept (s t : State) : Prop := ∀ r, t.readX r = s.readX r

/-- `f[rd]` holds the pattern v and no other floating-point register changes. -/
def FWritten (s t : State) (rd : Reg) (v : Int) : Prop :=
  ∀ r, ((t.readF r).toNat : Int) = if r = rd then v else (s.readF r).toNat

/-- No floating-point register changes. -/
def FKept (s t : State) : Prop := ∀ r, t.readF r = s.readF r

/-- frm and fflags do not change. -/
def CsrKept (s t : State) : Prop := t.hart.frm = s.hart.frm ∧ t.hart.fflags = s.hart.fflags

/-- frm does not change, and the raised flags among those of the cell are OR-ed into fflags (10_state.md R28). -/
def FlagsAccrued (s t : State) (cell raised : BitVec 5) : Prop :=
  t.hart.frm = s.hart.frm ∧ t.hart.fflags = s.hart.fflags ||| (raised &&& cell)

/-- The pairing state does not change. -/
def LrKept (s t : State) : Prop := t.hart.lr = s.hart.lr

/-- The parameters, the fetched addresses and the other harts do not change. -/
def OutsideKept (s t : State) : Prop := t.params = s.params ∧ t.fetched = s.fetched ∧ t.others = s.others

/-- No byte of memory changes, and no store is noted as done. -/
def BytesKept (s t : State) : Prop := t.mem = s.mem ∧ ∀ x, t.byteAt x = s.byteAt x

/-- No memory operation arises, no draw is made, and memory and everything outside the hart stay. -/
def NoMemoryEffect (s t : State) : Prop :=
  OutsideKept s t ∧ BytesKept s t ∧ t.history = s.history ∧ t.draws = s.draws

/-- The hart is still the same one, and the instruction is the newest of its stream: the position goes up by one, and the
dependency bookkeeping takes the step of 20_memory.md R78. -/
def Logged (i : Instr) (ok : Bool) (s t : State) : Prop :=
  t.hart.id = s.hart.id ∧ t.hart.entry = s.hart.entry ∧ t.hart.len = s.hart.len ∧
  t.hart.pos = s.hart.pos + 1 ∧ t.hart.stream = { instr := i, scOk := ok } :: s.hart.stream ∧
  ({ deps := t.hart.deps, ctrl := t.hart.ctrl } : DepState) =
    ({ deps := s.hart.deps, ctrl := s.hart.ctrl } : DepState).walk (Machine.Instr.listing ok i) s.hart.pos

/-- The instruction is logged, the hart goes on, and the next instruction is at `pc`. -/
def GoesTo (pc : Int) (i : Instr) (s t : State) : Prop :=
  (t.pc.toNat : Int) = pc % size s ∧ t.hart.ended = s.hart.ended ∧ Logged i false s t

/-- The instruction is logged, the hart goes on, and the next instruction is at pc + 4 modulo 2^XLEN. -/
def GoesOn (i : Instr) (s t : State) : Prop := GoesTo ((s.pc.toNat : Int) + 4) i s t

/-- The instruction computes v into `x[rd]` and does nothing else. -/
def ComputesX (i : Instr) (s : State) (rd : Reg) (v : Int) : Prop :=
  Runs i s fun t => XWritten s t rd v ∧ FKept s t ∧ CsrKept s t ∧ LrKept s t ∧ NoMemoryEffect s t ∧ GoesOn i s t

/-- The instruction does nothing but go on to an address, with v written to `x[rd]`. -/
def JumpsTo (i : Instr) (s : State) (rd : Reg) (v pc : Int) : Prop :=
  Runs i s fun t => XWritten s t rd v ∧ FKept s t ∧ CsrKept s t ∧ LrKept s t ∧ NoMemoryEffect s t ∧ GoesTo pc i s t

/-! ### Memory operations -/

/-- (offset, length) pairs that cut the bytes start .. n - 1 into adjacent pieces, lowest first, none empty. -/
def Covers : (start : Nat) → List (Nat × Nat) → (n : Nat) → Prop
  | start, [], n => start = n
  | start, p :: ps, n => p.1 = start ∧ 0 < p.2 ∧ Covers (start + p.2) ps n

/-- The pieces in which an access of n bytes at a is performed: one piece if it is aligned, and no FLD or FSD with XLEN < 64
(20_memory.md R55, R57, R58). -/
def Pieces (s : State) (a n : Nat) (fpDouble : Bool) (ps : List (Nat × Nat)) : Prop :=
  Covers 0 ps n ∧ (a % n = 0 → ¬(fpDouble = true ∧ s.xlen = .rv32) → ps = [(0, n)])

/-- The record of a load operation (10_state.md R37) of the hart whose turn it is, on one piece of an access. -/
def loadRecord (s : State) (a : Nat) (bytes : List Byte) (annot : Annot) (p : Nat × Nat) : MemOp :=
  { hart := s.hart.id, inst := s.hart.pos, isLoad := true, isStore := false, addr := a + p.1, len := p.2,
    loaded := (bytes.drop p.1).take p.2, stored := [], annot := annot, region := .main, fromAMOorSC := false,
    pairedWith := none }

/-- The record of a store operation; `lr` is the position of the LR it is paired with, for an SC. -/
def storeRecord (s : State) (a : Nat) (bytes : List Byte) (annot : Annot) (lr : Option Nat) (p : Nat × Nat) : MemOp :=
  { hart := s.hart.id, inst := s.hart.pos, isLoad := false, isStore := true, addr := a + p.1, len := p.2,
    loaded := [], stored := (bytes.drop p.1).take p.2, annot := annot, region := .main, fromAMOorSC := lr.isSome,
    pairedWith := lr }

/-- The annotation set with acquire-RCsc and release-RCsc as given, and no RCpc annotation (20_memory.md R60, R62). -/
def annotated (acq rel : Bool) : Annot := { acqRCpc := false, acqRCsc := acq, relRCpc := false, relRCsc := rel }

/-- An access of n bytes at a loads the bytes given: memory and everything outside the hart stay, and its load operations
are the newest of the history. -/
def LoadsFrom (s t : State) (a n : Nat) (fpDouble : Bool) (annot : Annot) : Prop :=
  OutsideKept s t ∧ BytesKept s t ∧ ∃ ps, Pieces s a n fpDouble ps ∧
    t.history = (ps.map (loadRecord s a (s.memRead a n) annot)).reverse ++ s.history

/-- An access of n bytes at a stores the low bytes of v: they stand in memory, every other byte is as it was, and its store
operations are the newest of the history. -/
def StoresTo (s t : State) (a n : Nat) (v : Int) (fpDouble : Bool) (annot : Annot) (lr : Option Nat) : Prop :=
  OutsideKept s t ∧ (∀ x, t.byteAt x = if a ≤ x ∧ x < a + n then leByte v (x - a) else s.byteAt x) ∧
  ∃ ps, Pieces s a n fpDouble ps ∧ t.history = (ps.map (storeRecord s a (leBytes n v) annot lr)).reverse ++ s.history

/-- One operation of n bytes at a that loads the bytes there and stores the low bytes of v (20_memory.md R55). -/
def Exchanges (s t : State) (a n : Nat) (v : Int) (annot : Annot) : Prop :=
  OutsideKept s t ∧ (∀ x, t.byteAt x = if a ≤ x ∧ x < a + n then leByte v (x - a) else s.byteAt x) ∧
  t.history = { hart := s.hart.id, inst := s.hart.pos, isLoad := true, isStore := true, addr := a, len := n,
                loaded := s.memRead a n, stored := leBytes n v, annot := annot, region := .main, fromAMOorSC := true,
                pairedWith := none } :: s.history

/-- Every byte of the access is main memory, and it ends within the address space (20_memory.md R104). -/
def InMain (s : State) (a n : Nat) : Prop := (∀ k, k < n → regionOf s.params (a + k) = .main) ∧ ((a + n : Nat) : Int) ≤ size s

/-- A misaligned access is performed (20_memory.md R101), or this one is aligned. -/
def Allowed (s : State) (a n : Nat) : Prop := s.params.misaligned = .decompose ∨ a % n = 0

/-- No byte of the access has been fetched as an instruction (20_memory.md R108). -/
def NotText (s : State) (a n : Nat) : Prop := ∀ b ∈ s.fetched, ¬(a ≤ b ∧ b < a + n)

/-- A load of n bytes from x[rs1] + imm: `x[rd]` takes a value made of the bytes, nothing else changes. -/
def LoadsX (i : Instr) (s : State) (rd rs1 : Reg) (imm : BitVec 12) (n : Nat) (v : Int → Int) : Prop :=
  Allowed s (s.effAddr rs1 imm) n → InMain s (s.effAddr rs1 imm) n →
  Runs i s fun t => XWritten s t rd (v (leValue (s.memRead (s.effAddr rs1 imm) n))) ∧ FKept s t ∧ CsrKept s t ∧ LrKept s t ∧
    LoadsFrom s t (s.effAddr rs1 imm) n false (annotated false false) ∧ GoesOn i s t

/-- A store of n bytes to x[rs1] + imm: the low bytes of v are stored, nothing else changes. -/
def StoresFrom (i : Instr) (s : State) (rs1 : Reg) (imm : BitVec 12) (n : Nat) (v : Int) (fpDouble : Bool) : Prop :=
  Allowed s (s.effAddr rs1 imm) n → InMain s (s.effAddr rs1 imm) n → NotText s (s.effAddr rs1 imm) n →
  Runs i s fun t => XKept s t ∧ FKept s t ∧ CsrKept s t ∧ LrKept s t ∧
    StoresTo s t (s.effAddr rs1 imm) n v fpDouble (annotated false false) none ∧ GoesOn i s t

/-- A floating-point load of n bytes from x[rs1] + imm: `f[rd]` holds a pattern made of the bytes. -/
def LoadsF (i : Instr) (s : State) (rd rs1 : Reg) (imm : BitVec 12) (n : Nat) (v : Int → Int) (fpDouble : Bool) : Prop :=
  Allowed s (s.effAddr rs1 imm) n → InMain s (s.effAddr rs1 imm) n →
  Runs i s fun t => FWritten s t rd (v (leValue (s.memRead (s.effAddr rs1 imm) n))) ∧ XKept s t ∧ CsrKept s t ∧ LrKept s t ∧
    LoadsFrom s t (s.effAddr rs1 imm) n fpDouble (annotated false false) ∧ GoesOn i s t

/-- What stops a load of n bytes at a, in the order of 60_exceptions.md R401. -/
def LoadStops (i : Instr) (s : State) (a n : Nat) : Prop :=
  (¬Allowed s a n → exec i s = .refused .misalignedAccess) ∧
  (Allowed s a n → (∃ k, k < n ∧ regionOf s.params (a + k) = .io) → exec i s = .refused .ioRegion) ∧
  (Allowed s a n → (∀ k, k < n → regionOf s.params (a + k) = .main) → size s < ((a + n : Nat) : Int) →
    exec i s = .fault .pastTop)

/-- What stops a store of n bytes at a. -/
def StoreStops (i : Instr) (s : State) (a n : Nat) : Prop :=
  LoadStops i s a n ∧ (Allowed s a n → InMain s a n → ¬NotText s a n → exec i s = .fault .storeToText)

/-- LR of n bytes: it is the outstanding LR, and `x[rd]` takes the value loaded, sign-extended (43_a.md R290). -/
def LoadsReserved (i : Instr) (s : State) (rd rs1 : Reg) (n : Nat) (aq rl : Bool) : Prop :=
  (s.readX rs1).toNat % n = 0 → InMain s (s.readX rs1).toNat n →
  Runs i s fun t => XWritten s t rd (wrap (8 * n) (leValue (s.memRead (s.readX rs1).toNat n))) ∧ FKept s t ∧ CsrKept s t ∧
    t.hart.lr = some { inst := s.hart.pos, addr := (s.readX rs1).toNat, width := n } ∧
    LoadsFrom s t (s.readX rs1).toNat n false (annotated aq (aq && rl)) ∧ GoesOn i s t

/-- An SC of n bytes may succeed here: it is paired with an LR, whose address and width are the same unless
SC_MISMATCH_MAY_SUCCEED (20_memory.md R107). -/
def MaySucceed (s : State) (a n : Nat) (l : LrRecord) : Prop :=
  s.hart.lr = some l ∧ (s.params.scMismatchMaySucceed = true ∨ (l.addr = a ∧ l.width = n))

/-- The instruction is logged with its SC outcome, and the hart goes on at pc + 4. -/
def GoesOnSc (i : Instr) (ok : Bool) (s t : State) : Prop :=
  (t.pc.toNat : Int) = ((s.pc.toNat : Int) + 4) % size s ∧ t.hart.ended = s.hart.ended ∧ Logged i ok s t

/-- A successful SC of n bytes: the low bytes of x[rs2] are stored, paired with the LR, and `x[rd] <- 0` (43_a.md R291). -/
def ScSucceeds (i : Instr) (s : State) (rd rs2 rs1 : Reg) (n : Nat) (aq rl : Bool) : Prop :=
  ∀ l, (s.readX rs1).toNat % n = 0 → MaySucceed s (s.readX rs1).toNat n l → s.draws.sc.1 = true →
  InMain s (s.readX rs1).toNat n → NotText s (s.readX rs1).toNat n →
  Runs i s fun t => XWritten s t rd 0 ∧ FKept s t ∧ CsrKept s t ∧ t.hart.lr = none ∧
    StoresTo s t (s.readX rs1).toNat n (ux s rs2) false (annotated (aq && rl) rl) (some l.inst) ∧ GoesOnSc i true s t

/-- An unsuccessful SC: no memory operation, `x[rd] <- 1`, and the pairing ends (43_a.md R291, 20_memory.md R56). -/
def ScFails (i : Instr) (s : State) (rd rs1 : Reg) (n : Nat) : Prop :=
  (s.readX rs1).toNat % n = 0 → ((∀ l, ¬MaySucceed s (s.readX rs1).toNat n l) ∨ s.draws.sc.1 = false) →
  Runs i s fun t => XWritten s t rd 1 ∧ FKept s t ∧ CsrKept s t ∧ t.hart.lr = none ∧ OutsideKept s t ∧ BytesKept s t ∧
    t.history = s.history ∧ GoesOnSc i false s t

/-- An AMO of n bytes with function g on the value loaded (43_a.md R292): one operation, `x[rd]` takes the old value,
sign-extended. -/
def AmoRuns (i : Instr) (s : State) (rd rs1 : Reg) (n : Nat) (aq rl : Bool) (g : Int → Int) : Prop :=
  (s.readX rs1).toNat % n = 0 → InMain s (s.readX rs1).toNat n → NotText s (s.readX rs1).toNat n →
  Runs i s fun t => XWritten s t rd (wrap (8 * n) (leValue (s.memRead (s.readX rs1).toNat n))) ∧ FKept s t ∧ CsrKept s t ∧
    LrKept s t ∧
    Exchanges s t (s.readX rs1).toNat n (g (leValue (s.memRead (s.readX rs1).toNat n))) (annotated aq rl) ∧ GoesOn i s t

/-- What stops an LR of n bytes. -/
def LrStops (i : Instr) (s : State) (a n : Nat) : Prop :=
  (a % n ≠ 0 → exec i s = .refused .misalignedAtomic) ∧
  (a % n = 0 → (∃ k, k < n ∧ regionOf s.params (a + k) = .io) → exec i s = .refused .ioRegion)

/-- What stops an AMO of n bytes. -/
def AmoStops (i : Instr) (s : State) (a n : Nat) : Prop :=
  LrStops i s a n ∧ (a % n = 0 → InMain s a n → ¬NotText s a n → exec i s = .fault .storeToText)

/-- What stops an SC of n bytes: misalignment always, the rest only when it would succeed. -/
def ScStops (i : Instr) (s : State) (a n : Nat) : Prop :=
  (a % n ≠ 0 → exec i s = .refused .misalignedAtomic) ∧
  ∀ l, a % n = 0 → MaySucceed s a n l → s.draws.sc.1 = true →
    ((∃ k, k < n ∧ regionOf s.params (a + k) = .io) → exec i s = .refused .ioRegion) ∧
    (InMain s a n → ¬NotText s a n → exec i s = .fault .storeToText)

/-! ### CSRs -/

/-- fcsr as a number: frm is bits 7..5, fflags bits 4..0 (10_state.md R30). -/
def fcsr (s : State) : Nat := s.hart.frm.toNat * 32 + s.hart.fflags.toNat

/-- What a CSR instruction reads from the CSR at an address, given fcsr. -/
def csrOf (a : BitVec 12) (v : Nat) : Nat := if a = 1 then v % 32 else if a = 2 then v / 32 else v

/-- fcsr after v is written to the CSR at an address, given fcsr before. -/
def csrSet (a : BitVec 12) (old v : Nat) : Nat :=
  if a = 1 then old / 32 * 32 + v % 32 else if a = 2 then v % 8 * 32 + old % 32 else v % 256

/-- A CSR instruction on fflags, frm or fcsr: `x[rd]` takes the old value, fcsr becomes `new`, nothing else changes. -/
def CsrRuns (i : Instr) (s : State) (rd : Reg) (a : BitVec 12) (new : Nat) : Prop :=
  a = 1 ∨ a = 2 ∨ a = 3 →
  Runs i s fun t => XWritten s t rd (csrOf a (fcsr s)) ∧ fcsr t = new ∧ FKept s t ∧ LrKept s t ∧ NoMemoryEffect s t ∧
    GoesOn i s t

/-! ### Floating point -/

/-- `nanbox` (44_f.md header), as a number of FLEN bits. -/
def boxed (s : State) (v : Nat) : Int := if s.params.ext.d = true then 2 ^ 64 - 2 ^ 32 + (v % 2 ^ 32 : Nat) else (v % 2 ^ 32 : Nat)

/-- The instruction writes a pattern to `f[rd]` and accrues flags, and does nothing else. -/
def ComputesF (i : Instr) (s : State) (rd : Reg) (v : Int) (cell raised : BitVec 5) : Prop :=
  Runs i s fun t => FWritten s t rd v ∧ FlagsAccrued s t cell raised ∧ XKept s t ∧ LrKept s t ∧ NoMemoryEffect s t ∧
    GoesOn i s t

/-- The same for a single-precision result, boxed. -/
def ComputesS (i : Instr) (s : State) (rd : Reg) (cell : BitVec 5) (r : FpResult) : Prop :=
  ComputesF i s rd (boxed s r.1) cell r.2

/-- The same for a double-precision result. -/
def ComputesD (i : Instr) (s : State) (rd : Reg) (cell : BitVec 5) (r : FpResult) : Prop :=
  ComputesF i s rd (r.1 % 2 ^ 64 : Nat) cell r.2

/-- The instruction computes v into `x[rd]` and accrues flags, and does nothing else. -/
def ComputesXF (i : Instr) (s : State) (rd : Reg) (v : Int) (cell raised : BitVec 5) : Prop :=
  Runs i s fun t => XWritten s t rd v ∧ FlagsAccrued s t cell raised ∧ FKept s t ∧ LrKept s t ∧ NoMemoryEffect s t ∧
    GoesOn i s t

/-- The flags of a cell. -/
def cellOf (nv dz of uf nx : Bool) : BitVec 5 :=
  BitVec.ofBool nv ++ BitVec.ofBool dz ++ BitVec.ofBool of ++ BitVec.ofBool uf ++ BitVec.ofBool nx

/-- The real number of a pattern; nothing for an infinity or a NaN. -/
noncomputable def valueOf (f : Fmt) (b : Nat) : Option ℝ :=
  match f.datum b with
  | .fin n m e => some ((if n then -1 else 1) * (m : ℝ) * (2 : ℝ) ^ e)
  | _ => none

/-- b is the largest number of the format that is at most x, or -infinity if there is none. -/
def RoundedDown (f : Fmt) (x : ℝ) (b : Nat) : Prop :=
  (∃ v, valueOf f b = some v ∧ v ≤ x ∧ ∀ c w, valueOf f c = some w → w ≤ x → w ≤ v) ∨
  (b = f.withSign true f.infBits ∧ ∀ c w, valueOf f c = some w → x < w)

/-- b is the smallest number of the format that is at least x, or +infinity if there is none. -/
def RoundedUp (f : Fmt) (x : ℝ) (b : Nat) : Prop :=
  (∃ v, valueOf f b = some v ∧ x ≤ v ∧ ∀ c w, valueOf f c = some w → x ≤ w → v ≤ w) ∨
  (b = f.withSign false f.infBits ∧ ∀ c w, valueOf f c = some w → w < x)

/-- From this magnitude on a result to nearest is an infinity: half a unit above the largest number. -/
noncomputable def overflowBound (f : Fmt) : ℝ :=
  (2 : ℝ) ^ ((2 : ℤ) ^ (f.expBits - 1)) - (2 : ℝ) ^ ((2 : ℤ) ^ (f.expBits - 1) - 2 - f.fracBits)

/-- b is a number of the format nearest to x; of two, the one that `tie` prefers. -/
def RoundedNearest (f : Fmt) (x : ℝ) (b : Nat) (tie : (v w : ℝ) → Prop) : Prop :=
  (|x| < overflowBound f ∧ ∃ v, valueOf f b = some v ∧ ∀ c w, valueOf f c = some w → |v - x| ≤ |w - x| ∧
    (|v - x| = |w - x| → w ≠ v → tie v w)) ∨
  (overflowBound f ≤ |x| ∧ b = f.withSign (decide (x < 0)) f.infBits)

/-- b is x rounded to the format in a mode (10_state.md R29): the value of a correctly rounded operation. -/
def Rounds (f : Fmt) (rm : RoundMode) (x : ℝ) (b : Nat) : Prop :=
  match rm with
  | .rne => RoundedNearest f x b (fun _ _ => b % 2 = 0)
  | .rmm => RoundedNearest f x b (fun v w => |w| ≤ |v|)
  | .rdn => RoundedDown f x b
  | .rup => RoundedUp f x b
  | .rtz => if 0 ≤ x then RoundedDown f x b else RoundedUp f x b

/-- k is x rounded to an integer in a mode (10_state.md R29). -/
def RoundsToInt (rm : RoundMode) (x : ℝ) (k : Int) : Prop :=
  match rm with
  | .rne => |x - k| ≤ 1 / 2 ∧ (|x - k| = 1 / 2 → k % 2 = 0)
  | .rmm => |x - k| ≤ 1 / 2 ∧ (|x - k| = 1 / 2 → |x| < |(k : ℝ)|)
  | .rdn => k = ⌊x⌋
  | .rup => k = ⌈x⌉
  | .rtz => k = if 0 ≤ x then ⌊x⌋ else ⌈x⌉

/-- |x|, rounded in a mode to the precision of the format with the exponent unbounded, is 2^k or more: half a unit below 2^k
is enough to nearest, and anything above the number next below 2^k when the mode rounds x away from zero. -/
def ReachesPower (f : Fmt) (rm : RoundMode) (x : ℝ) (k : ℤ) : Prop :=
  match rm with
  | .rne | .rmm => (2 : ℝ) ^ k - (2 : ℝ) ^ (k - 2 - f.fracBits) ≤ |x|
  | .rtz => (2 : ℝ) ^ k ≤ |x|
  | .rdn => if x < 0 then (2 : ℝ) ^ k - (2 : ℝ) ^ (k - 1 - f.fracBits) < |x| else (2 : ℝ) ^ k ≤ |x|
  | .rup => if x < 0 then (2 : ℝ) ^ k ≤ |x| else (2 : ℝ) ^ k - (2 : ℝ) ^ (k - 1 - f.fracBits) < |x|

/-- r is the real number x, correctly rounded to the format in a mode: its value, its sign, and exactly the flags that go with
it. NX: the result is not x. OF: x so rounded, with the exponent unbounded, is above the largest number. UF: the result is not
x, and x so rounded is below the smallest normal number (after rounding, 44_f.md header). -/
def CorrectlyRounded (f : Fmt) (rm : RoundMode) (x : ℝ) (r : FpResult) : Prop :=
  Rounds f rm x r.1 ∧ (x ≠ 0 → f.neg r.1 = decide (x < 0)) ∧
  (r.2 &&& flagNX ≠ 0 ↔ valueOf f r.1 ≠ some x) ∧
  (r.2 &&& flagOF ≠ 0 ↔ ReachesPower f rm x ((2 : ℤ) ^ (f.expBits - 1))) ∧
  (r.2 &&& flagUF ≠ 0 ↔ valueOf f r.1 ≠ some x ∧ ¬ReachesPower f rm x (2 - (2 : ℤ) ^ (f.expBits - 1))) ∧
  r.2 &&& (flagNV ||| flagDZ) = 0

/-- The sign of an exact zero sum of terms with these signs (IEEE 754-2008, log 14): negative or not. -/
def zeroSign (rm : RoundMode) (m n : Bool) : Bool := if m = n then m else decide (rm = .rdn)

/-- The pattern is an infinity. -/
def IsInf (f : Fmt) (a : Nat) : Prop := ∃ n, f.datum a = .inf n

/-- One factor is an infinity, the other a zero. -/
def InfTimesZero (f : Fmt) (a b : Nat) : Prop :=
  (IsInf f a ∧ valueOf f b = some 0) ∨ (valueOf f a = some 0 ∧ IsInf f b)

/-- The extended real number of a pattern; nothing for a NaN. -/
noncomputable def extendedOf (f : Fmt) (b : Nat) : Option EReal :=
  match f.datum b with
  | .nan _ => none
  | .inf n => some (if n then ⊥ else ⊤)
  | .fin n m e => some (((if n then -1 else 1) * (m : ℝ) * (2 : ℝ) ^ e : ℝ) : EReal)

/-- The smallest normal number. -/
noncomputable def minNormal (f : Fmt) : ℝ := (2 : ℝ) ^ (2 - (2 : ℤ) ^ (f.expBits - 1))

/-- Single or double precision. -/
def Standard (f : Fmt) : Prop := f = .single ∨ f = .double

/-! ### The listings -/

/-- The unit of an integer register field: none for x0 (10_state.md R25). -/
def xu (r : Reg) : Set DepUnit := fun u => r ≠ 0 ∧ u = .x r

/-- The unit of a floating-point register field. -/
def fu (r : Reg) : Set DepUnit := fun u => u = .f r

/-- `frm*`: FRM, where rm = 111. -/
def frmIf (rm : BitVec 3) : Set DepUnit := fun u => rm = 7 ∧ u = .frm

/-- The FFLAG units of a cell. -/
def flagsOf (cell : BitVec 5) : Set DepUnit := fun u => ∃ k : Fin 5, u = .flag k ∧ cell.getLsbD k.val = true

/-- The units of a CSR (10_state.md R25 to R31): FRM and the five flags for frm, fflags and fcsr; any other is a unit, unless it
is read-only. -/
def csru (a : BitVec 12) : Set DepUnit := fun u =>
  ((a = 2 ∨ a = 3) ∧ u = .frm) ∨ ((a = 1 ∨ a = 3) ∧ ∃ k, u = .flag k) ∨
  (a ≠ 1 ∧ a ≠ 2 ∧ a ≠ 3 ∧ a.toNat / 2 ^ 10 ≠ 3 ∧ u = .csr a)

/-- The units of a set, where p holds. -/
def onlyIf (p : Prop) (us : Set DepUnit) : Set DepUnit := fun u => p ∧ u ∈ us

/-- A row of the listings: address sources, data sources, other sources, destinations, accumulating CSRs, which units are
carried into which, and whether it is a branch or indirect jump, a memory access, an LR or an SC. -/
structure Row where
  /-- address sources -/
  addr : Set DepUnit := ∅
  /-- data sources -/
  data : Set DepUnit := ∅
  /-- other sources -/
  other : Set DepUnit := ∅
  /-- destinations -/
  dests : Set DepUnit := ∅
  /-- accumulating CSRs -/
  acc : Set DepUnit := ∅
  /-- the first unit is carried into the second -/
  carries : DepUnit → DepUnit → Prop := fun _ _ => False
  /-- it is a branch or indirect jump -/
  control : Prop := False
  /-- it gives rise to a memory operation -/
  memory : Prop := False
  /-- its part in pairing -/
  role : PairRole := .none

/-- Instruction i, with SC outcome ok, has this row: accumulating CSRs are sources and destinations as well (20_memory.md R68,
R70). -/
def ListedAs (ok : Bool) (i : Instr) (r : Row) : Prop :=
  (∀ u, (u ∈ (Machine.Instr.listing ok i).addr ↔ u ∈ r.addr) ∧ (u ∈ (Machine.Instr.listing ok i).data ↔ u ∈ r.data) ∧
    (u ∈ (Machine.Instr.listing ok i).acc ↔ u ∈ r.acc) ∧
    (u ∈ (Machine.Instr.listing ok i).sources ↔ u ∈ r.addr ∪ r.data ∪ r.other ∪ r.acc) ∧
    (u ∈ (Machine.Instr.listing ok i).destinations ↔ u ∈ r.dests ∪ r.acc)) ∧
  (∀ p q, p ∈ (Machine.Instr.listing ok i).carriers q ↔ r.carries p q) ∧
  ((Machine.Instr.listing ok i).control = true ↔ r.control) ∧ ((Machine.Instr.listing ok i).memory = true ↔ r.memory) ∧
  (Machine.Instr.listing ok i).role = r.role

/-- An unmarked computational row: sources are carried into destinations and accumulating CSRs, and each of these into itself
(20_memory.md R72). -/
def computes (srcs dests acc : Set DepUnit) : Row :=
  { other := srcs, dests := dests, acc := acc, carries := fun p q => (p ∈ srcs ∧ q ∈ dests ∪ acc) ∨ (p = q ∧ q ∈ acc) }

/-- A CSR row ‡: a register source is carried into the CSR where it is written, and the CSR into rd where it is read. -/
def csrRow (rd : Reg) (src csr : Set DepUnit) (read write : Prop) : Row :=
  { other := src ∪ onlyIf read csr, dests := xu rd ∪ onlyIf write csr,
    carries := fun p q => (p ∈ src ∧ q ∈ onlyIf write csr) ∨ (p ∈ onlyIf read csr ∧ q ∈ xu rd) }

/-! ### Executions -/

/-- a is the load of an LR and b the store of the SC paired with it: no LR or SC stands between (20_memory.md R59). -/
def PairedLrSc (E : Execution) (a b : MemOp) : Prop :=
  a.isLoad = true ∧ b.isStore = true ∧ po a b ∧
  (∃ n rd rs1 aq rl, E.inst a.hart a.inst = some n ∧ (n.instr = .lrW rd rs1 aq rl ∨ n.instr = .lrD rd rs1 aq rl)) ∧
  (∃ n rd rs2 rs1 aq rl, E.inst a.hart b.inst = some n ∧
    (n.instr = .scW rd rs2 rs1 aq rl ∨ n.instr = .scD rd rs2 rs1 aq rl)) ∧
  ∀ k n, a.inst < k → k < b.inst → E.inst a.hart k = some n → ∀ rd rs2 rs1 aq rl,
    n.instr ≠ .lrW rd rs1 aq rl ∧ n.instr ≠ .lrD rd rs1 aq rl ∧ n.instr ≠ .scW rd rs2 rs1 aq rl ∧
    n.instr ≠ .scD rd rs2 rs1 aq rl

/-- b has a syntactic address dependency on a: the instruction of b has a syntactic dependency on that of a via an address
source (20_memory.md R74). -/
def AddressDependent (E : Execution) (a b : MemOp) : Prop :=
  a.hart = b.hart ∧ ∃ n u, E.inst b.hart b.inst = some n ∧ u ∈ n.listing.addr ∧ E.depends b.hart a.inst b.inst u

/-- The store b has a syntactic data dependency on a (20_memory.md R75). -/
def DataDependent (E : Execution) (a b : MemOp) : Prop :=
  a.hart = b.hart ∧ b.isStore = true ∧
  ∃ n u, E.inst b.hart b.inst = some n ∧ u ∈ n.listing.data ∧ E.depends b.hart a.inst b.inst u

/-- b has a syntactic control dependency on a: a branch or indirect jump between them has a syntactic dependency on the
instruction of a (20_memory.md R76). -/
def ControlDependent (E : Execution) (a b : MemOp) : Prop :=
  a.hart = b.hart ∧ ∃ m n u, a.inst < m ∧ m < b.inst ∧ E.inst b.hart m = some n ∧ n.listing.control = true ∧
    E.depends b.hart a.inst m u

/-- Every operation is in main memory. -/
def AllMain (E : Execution) : Prop := ∀ o, E.ops o → o.region = .main

/-- The operations of one instruction are disjoint: each byte is in one component (20_memory.md R58). -/
def DisjointParts (E : Execution) : Prop :=
  ∀ a b x, E.ops a → E.ops b → a.hart = b.hart → a.inst = b.inst → a.has x → b.has x → a = b

/-- What a run records: no operation twice, every byte of an operation in main memory, and every operation from an
instruction of the stream of its hart that gives rise to memory operations; the operations of one instruction are
disjoint. -/
def Recorded (s : State) : Prop :=
  s.history.Nodup ∧ DisjointParts s.execution ∧
  ∀ o ∈ s.history, o.region = .main ∧ (∀ x, o.has x → s.execution.main x) ∧
    ∃ n, streamAt (s.streamOf o.hart) o.inst = some n ∧ n.listing.memory = true

/-- One hart that has done nothing yet, with any registers, program and parameters. -/
def FreshOneHart (s : State) : Prop :=
  s.others = [] ∧ s.history = [] ∧ s.mem = [] ∧ s.hart.stream = [] ∧ s.hart.pos = 0 ∧ s.hart.lr = none ∧
  s.hart.deps = [] ∧ s.hart.ctrl = []

/-! ### Invariants -/

/-- The position of the LR that an SC after this stream (newest first) would be paired with: that of the newest LR or SC, if
it is an LR (20_memory.md R59). -/
def pairableAfter : List Instance → Option Nat
  | [] => none
  | n :: older =>
    match n.listing.role with
    | .lr => some older.length
    | .sc => none
    | .none => pairableAfter older

/-- A hart's position, dependency bookkeeping and pairing state are those of its stream (20_memory.md R59, R66, R78). -/
def Bookkept (h : Hart) : Prop :=
  h.pos = h.stream.length ∧ ({ deps := h.deps, ctrl := h.ctrl } : DepState) = walkAll h.stream ∧
  h.lr.map LrRecord.inst = pairableAfter h.stream

/-- pc is a multiple of 2, and of 4 without compressed instructions (30_encoding.md R133). -/
def PcAligned (s : State) : Prop :=
  ∀ h ∈ s.harts, (s.xlen.trunc h.pc).toNat % 2 = 0 ∧ (s.params.ext.c = false → (s.xlen.trunc h.pc).toNat % 4 = 0)

/-- Memory and the fetched addresses are in canonical form, and no store has written a fetched byte (20_memory.md R108). -/
def MemorySound (s : State) : Prop :=
  s.mem.wf ∧ s.fetched.Pairwise (· < ·) ∧ ∀ a ∈ s.fetched, s.mem.at? a = none

/-- A memory operation as 10_state.md R37 has it: a load or a store, a byte or more, in main memory within the address
space, a value for each byte it loads or stores and no other, and no RCpc annotation (20_memory.md R62). -/
def SoundRecord (s : State) (o : MemOp) : Prop :=
  (o.isLoad = true ∨ o.isStore = true) ∧ 0 < o.len ∧ o.loaded.length = (if o.isLoad then o.len else 0) ∧
  o.stored.length = (if o.isStore then o.len else 0) ∧ o.region = .main ∧
  (∀ x, o.has x → regionOf s.params x = .main) ∧ ((o.addr + o.len : Nat) : Int) ≤ size s ∧
  (o.isLoad = true ∧ o.isStore = true → o.fromAMOorSC = true) ∧
  o.annot.acqRCpc = false ∧ o.annot.relRCpc = false

/-- Every operation of the history is such a record. -/
def HistorySound (s : State) : Prop := ∀ o ∈ s.history, SoundRecord s o

end Sys2Proof.Claims

open Sys2Proof Sys2Proof.Machine Sys2Proof.Claims

/-- Decoding the word of a well-formed instruction gives the instruction.
30_encoding.md R133, R134, R140, R146: every field of every row survives encoding and decoding. That a FENCE.I with reserved fields that
are not zero is an instruction is the model's choice (log 27). -/
def Obligations.DecodeInvertsEncode : Prop :=
  ∀ (x : Xlen) (e : Ext) (i : Instr), WellFormed x e i → decode x e (encode i) = .ok i

/-- A decoded word is the word of the instruction, and the instruction is a row for this XLEN and EXT.
30_encoding.md R133, R146: the decoder is exact on 32-bit words. That a FENCE.I with reserved fields that
are not zero is an instruction is the model's choice (log 27). -/
def Obligations.EncodeInvertsDecode : Prop :=
  ∀ (x : Xlen) (e : Ext) (w : BitVec 32) (i : Instr), decode x e w = .ok i → WellFormed x e i ∧ encode i = w

/-- Example words of the family files decode to the instructions they stand for.
The Example lines of 40_rv32i.md to 44_f.md. -/
def Obligations.SpecWordsDecode : Prop :=
  decode .rv64 .all 0x007302B3 = .ok (.add 5 6 7) ∧
  decode .rv64 .all 0x004300E7 = .ok (.jalr 1 6 4) ∧
  decode .rv64 .all 0x00628863 = .ok (.beq 5 6 16) ∧
  decode .rv64 .all 0x00430283 = .ok (.lb 5 6 4) ∧
  decode .rv64 .all 0x00732223 = .ok (.sw 7 6 4) ∧
  decode .rv64 .all 0x8330000F = .ok (.fence 8 3 3 0 0) ∧
  decode .rv64 .all 0x003312F3 = .ok (.csrrw 5 3 6) ∧
  decode .rv64 .all 0x140322AF = .ok (.lrW 5 6 true false) ∧
  decode .rv64 .all 0x203100C3 = .ok (.fmaddS 1 2 3 4 0) ∧
  decode .rv64 .all 0x02031293 = .ok (.slli 5 6 32)

/-- Byte k of a value is its bits 8k+7..8k, in memory and in instruction words.
20_memory.md R100. -/
def Obligations.LittleEndianBytes : Prop :=
  (∀ (n k : Nat) (w : Word), n ≤ 8 → k < n → (bytesOf n w)[k]? = some (w.extractLsb' (8 * k) 8)) ∧
  (∀ (n : Nat) (w : Word), n ≤ 8 → (wordOf (bytesOf n w)).toNat = w.toNat % 2 ^ (8 * n)) ∧
  (∀ (s : State) (a n k : Nat) (w : Word) (d : Bool) (an : Annot) (sc : Option Nat), n ≤ 8 → k < n →
    (s.memWrite a (bytesOf n w) d an sc).byteAt (a + k) = w.extractLsb' (8 * k) 8) ∧
  (∀ (x : Xlen) (e : Ext) (w : BitVec 32) (rest : List Byte),
    decodeBytes x e ((List.range 4).map (fun k => w.extractLsb' (8 * k) 8) ++ rest) =
      (match decode x e w with
        | .ok i => .ok (i, rest)
        | .error d => .error d)) ∧
  (∀ i : Instr, encodeBytes i = (List.range 4).map (fun k => (encode i).extractLsb' (8 * k) 8))

/-- 16-bit words, rows of another XLEN or EXT, and other SYSTEM words are no instruction.
30_encoding.md R136, R140, R146, R147; 60_exceptions.md R404. -/
def Obligations.WordsThatAreNoInstruction : Prop :=
  (∀ (x : Xlen) (e : Ext) (w : BitVec 32), w.extractLsb' 0 2 ≠ 3 → decode x e w = .error .compressed) ∧
  (∀ (x : Xlen) (e : Ext) (i : Instr), existsFor x i = true → groupPresent e (groupOf i) = false →
    decode x e (encode i) = .error .notPresent) ∧
  (∀ (e : Ext) (i : Instr), existsFor .rv32 i = false →
    (∀ rd rs1 sh, i ≠ .slli rd rs1 sh ∧ i ≠ .srli rd rs1 sh ∧ i ≠ .srai rd rs1 sh) →
    decode .rv32 e (encode i) = .error .notPresent) ∧
  (∀ (e : Ext) (rd rs1 : Reg) (sh : BitVec 6), 32 ≤ sh.toNat →
    decode .rv32 e (encode (.slli rd rs1 sh)) = .error .noRow ∧ decode .rv32 e (encode (.srli rd rs1 sh)) = .error .noRow ∧
    decode .rv32 e (encode (.srai rd rs1 sh)) = .error .noRow) ∧
  (∀ (e : Ext) (rd rs1 : Reg) (sh : BitVec 6) (sh5 : BitVec 5), sh.toNat = sh5.toNat →
    ∀ x, decode x e (encode (.slli rd rs1 sh)) = decode x e (encode (.slli32 rd rs1 sh5)) ∧
      decode x e (encode (.srli rd rs1 sh)) = decode x e (encode (.srli32 rd rs1 sh5)) ∧
      decode x e (encode (.srai rd rs1 sh)) = decode x e (encode (.srai32 rd rs1 sh5))) ∧
  (∀ (i : Instr), existsFor .rv64 i = false →
    ∃ rd rs1 sh, i = .slli32 rd rs1 sh ∨ i = .srli32 rd rs1 sh ∨ i = .srai32 rd rs1 sh) ∧
  (∀ (x : Xlen) (e : Ext) (w : BitVec 32), w.extractLsb' 0 7 = 0b1110011 → w.extractLsb' 12 3 = 0 →
    w ≠ 0x00000073 → w ≠ 0x00100073 → decode x e w = .error .noRow) ∧
  (∀ (x : Xlen) (e : Ext), decode x e 0 = .error .compressed)

/-- A step runs the instruction the bytes at pc decode to.
70_reset_and_hazards.md R431, 20_memory.md R108. The ring of turns is the model's choice (log 9), and so is fetching from listed text only
(log 7). That an unaligned pc (log 23), one outside the hart's own program (log 25) and one in an io region (log 28) are
fetched and run is the model's choice too, no rule of the spec, and so is where the end of a program is that fills the
address space (log 31). -/
def Obligations.StepRunsDecodedInstruction : Prop :=
  ∀ (s : State) (i : Instr) (rest : List Byte), s.hart.ended = false → s.atEnd = false → s.written s.pc.toNat 4 = false →
    decodeBytes s.xlen s.params.ext (s.textBytes s.pc.toNat 4) = .ok (i, rest) →
    step s = (match exec i s.noteFetch with
      | .next t => .next t.yield
      | .fault f => .fault f
      | .refused q => .refused q) ∧
    s.noteFetch = { s with fetched := s.noteFetch.fetched } ∧
    ∀ b, b ∈ s.noteFetch.fetched ↔ b ∈ s.fetched ∨ (s.pc.toNat ≤ b ∧ b < s.pc.toNat + 4)

/-- A placed word is what the next step runs.
70_reset_and_hazards.md R431. That a program is placed from outside is the model's choice (log 7). So is that the word runs at
an odd pc or one that is no multiple of 4 without compressed instructions (log 23), and in an io region (log 28), and that it
replaces what INIT_MEM lists there (log 29). -/
def Obligations.PlacedWordRuns : Prop :=
  ∀ (s : State) (i : Instr), s.mem.wf → (s.pc.toNat : Int) + 4 ≤ size s → WellFormed s.xlen s.params.ext i →
    step (s.withFetchWord 32 (encode i).toNat) = yieldResult (exec i (s.withFetchWord 32 (encode i).toNat).noteFetch) ∧
    (∀ r, (s.withFetchWord 32 (encode i).toNat).readX r = s.readX r) ∧
    (∀ r, (s.withFetchWord 32 (encode i).toNat).readF r = s.readF r) ∧
    (s.withFetchWord 32 (encode i).toNat).pc = s.pc

/-- What a step does where no instruction runs: an ended hart, the end of a program, no text, overwritten text.
60_exceptions.md R401 conditions 1 and 10, R409; 92_eei_decisions.md D27. Which stop is a fault and which a refusal follows
93_implementation_defined.md (log 5). That text is what INIT_MEM lists, so that a pc inside the program with an unlisted byte is
no instruction, is the model's choice (log 7). So is that a pc is asked for neither alignment (log 23), nor the own program
(log 25), nor REGION (log 28), and that a program that fills the address space is at
its end where it starts (log 31). -/
def Obligations.StepsWithoutInstruction : Prop :=
  ∀ (s : State),
    (s.hart.ended = true → s.turn = .next s) ∧
    (s.hart.ended = false → s.atEnd = true → s.turn = .next { s with hart := { s.hart with ended := true } }) ∧
    (s.hart.ended = false → s.atEnd = false →
      (s.written s.pc.toNat 4 = true → step s = .fault .storeToText) ∧
      (s.written s.pc.toNat 4 = false →
        (∀ d, decodeBytes s.xlen s.params.ext (s.textBytes s.pc.toNat 4) = .error d → d ≠ .compressed →
          step s = .fault .noInstruction) ∧
        (∀ b0 b1 more, s.textBytes s.pc.toNat 4 = b0 :: b1 :: more → b0.extractLsb' 0 2 ≠ 3 →
          step s = .refused .compressed)))

/-- A step changes one hart, and the ring of harts turns by one.
60_exceptions.md R409: what is per hart. The ring of turns is the model's choice (log 9). -/
def Obligations.TurnChangesOneHart : Prop :=
  ∀ (s t : State), step s = .next t →
    t.params = s.params ∧
    ∃ h, t.harts = s.others ++ [h] ∧ h.id = s.hart.id ∧ h.entry = s.hart.entry ∧ h.len = s.hart.len ∧
      (s.hart.ended = true → h = s.hart)

/-- What reset leaves.
10_state.md R36. That registers, CSRs and pc are zero, and the parameters, are the model's choices (log 1, log 2, log 3). -/
def Obligations.ResetState : Prop :=
  State.reset.readX 0 = 0 ∧ State.reset.history = [] ∧ (∀ a, State.reset.mem.at? a = none) ∧
  (∀ a, State.reset.byteAt a = Config.initByte a) ∧ State.reset.fetched = [] ∧ State.reset.hart.lr = none ∧
  State.reset.hart.stream = [] ∧ State.reset.hart.pos = 0 ∧ State.reset.hart.ended = false ∧
  State.reset.hart.deps = [] ∧ State.reset.hart.ctrl = [] ∧
  State.reset.others = [] ∧ State.reset.hart.id = 0 ∧ State.reset.pc = 0 ∧ State.reset.xlen = .rv64 ∧
  State.reset.params.ext = .all ∧ (∀ r, State.reset.readX r = 0) ∧ (∀ r, State.reset.readF r = 0) ∧
  fcsr State.reset = 0

/-- The integer and floating-point register files hold what is written, and x0 is zero.
10_state.md R21, R23, R24; 00_scope.md R9. -/
def Obligations.RegisterFiles : Prop :=
  ∀ (s : State) (r q : Reg) (v : Word),
    s.readX 0 = 0 ∧ s.writeX 0 v = s ∧ ((s.readX r).toNat : Int) < size s ∧ ((s.pc.toNat : Nat) : Int) < size s ∧
    (r ≠ 0 → (((s.writeX r v).readX r).toNat : Int) = v.toNat % size s) ∧
    (q ≠ r → (s.writeX r v).readX q = s.readX q) ∧
    ((s.writeF r v).readF r).toNat = v.toNat % 2 ^ (if s.params.ext.d = true then 64 else 32) ∧
    (q ≠ r → (s.writeF r v).readF q = s.readF q)

/-- frm is bits 7-5 of fcsr, fflags bits 4-0; the rest of fcsr reads zero.
10_state.md R30. -/
def Obligations.FcsrAliasesFrmAndFflags : Prop :=
  (∀ (s : State) (v : Word),
    (∃ c m f, s.readCsr 3 = some c ∧ s.readCsr 2 = some m ∧ s.readCsr 1 = some f ∧
      c.toNat = m.toNat * 32 + f.toNat ∧ m.toNat < 8 ∧ f.toNat < 32) ∧
    (∃ m f, (s.writeCsr 3 v).readCsr 2 = some m ∧ (s.writeCsr 3 v).readCsr 1 = some f ∧
      m.toNat = v.toNat / 32 % 8 ∧ f.toNat = v.toNat % 32) ∧
    (∃ c m, (s.writeCsr 1 v).readCsr 3 = some c ∧ s.readCsr 2 = some m ∧ c.toNat = m.toNat * 32 + v.toNat % 32) ∧
    (∃ c f, (s.writeCsr 2 v).readCsr 3 = some c ∧ s.readCsr 1 = some f ∧ c.toNat = v.toNat % 8 * 32 + f.toNat)) ∧
  (∀ u, u ∈ csrUnits 3 ↔ u = .frm ∨ ∃ k, u = .flag k) ∧ (∀ u, u ∈ csrUnits 2 ↔ u = .frm) ∧
  (∀ u, u ∈ csrUnits 1 ↔ ∃ k, u = .flag k)

/-- LUI, AUIPC and the integer immediate instructions: results and frame.
40_rv32i.md R200, R201, R218 to R223. -/
def Obligations.IntegerImmediateResults : Prop :=
  ∀ (s : State) (rd rs1 : Reg) (imm : BitVec 12) (up : BitVec 20),
    ComputesX (.lui rd up) s rd (up.toInt * 4096) ∧
    ComputesX (.auipc rd up) s rd (s.pc.toNat + up.toInt * 4096) ∧
    ComputesX (.addi rd rs1 imm) s rd (ux s rs1 + imm.toInt) ∧
    ComputesX (.slti rd rs1 imm) s rd (bit (sx s rs1 < imm.toInt)) ∧
    ComputesX (.sltiu rd rs1 imm) s rd (bit (ux s rs1 < uimm s imm)) ∧
    ComputesX (.xori rd rs1 imm) s rd ((ux s rs1).toNat ^^^ (uimm s imm).toNat : Nat) ∧
    ComputesX (.ori rd rs1 imm) s rd ((ux s rs1).toNat ||| (uimm s imm).toNat : Nat) ∧
    ComputesX (.andi rd rs1 imm) s rd ((ux s rs1).toNat &&& (uimm s imm).toNat : Nat)

/-- The integer register-register instructions: results and frame.
40_rv32i.md R227 to R236. -/
def Obligations.IntegerRegisterResults : Prop :=
  ∀ (s : State) (rd rs1 rs2 : Reg),
    ComputesX (.add rd rs1 rs2) s rd (ux s rs1 + ux s rs2) ∧
    ComputesX (.sub rd rs1 rs2) s rd (ux s rs1 - ux s rs2) ∧
    ComputesX (.sll rd rs1 rs2) s rd (ux s rs1 * 2 ^ ((ux s rs2).toNat % s.xlen.bits)) ∧
    ComputesX (.slt rd rs1 rs2) s rd (bit (sx s rs1 < sx s rs2)) ∧
    ComputesX (.sltu rd rs1 rs2) s rd (bit (ux s rs1 < ux s rs2)) ∧
    ComputesX (.xor rd rs1 rs2) s rd ((ux s rs1).toNat ^^^ (ux s rs2).toNat : Nat) ∧
    ComputesX (.srl rd rs1 rs2) s rd (ux s rs1 / 2 ^ ((ux s rs2).toNat % s.xlen.bits)) ∧
    ComputesX (.sra rd rs1 rs2) s rd (sx s rs1 / 2 ^ ((ux s rs2).toNat % s.xlen.bits)) ∧
    ComputesX (.or rd rs1 rs2) s rd ((ux s rs1).toNat ||| (ux s rs2).toNat : Nat) ∧
    ComputesX (.and rd rs1 rs2) s rd ((ux s rs1).toNat &&& (ux s rs2).toNat : Nat)

/-- The shift-immediate rows of RV32 and RV64: results and frame.
40_rv32i.md R224 to R226, 41_rv64i.md R253 to R255. -/
def Obligations.ShiftImmediateResults : Prop :=
  ∀ (s : State) (rd rs1 : Reg) (sh5 : BitVec 5) (sh6 : BitVec 6),
    (s.xlen = .rv32 →
      ComputesX (.slli32 rd rs1 sh5) s rd (ux s rs1 * 2 ^ sh5.toNat) ∧
      ComputesX (.srli32 rd rs1 sh5) s rd (ux s rs1 / 2 ^ sh5.toNat) ∧
      ComputesX (.srai32 rd rs1 sh5) s rd (sx s rs1 / 2 ^ sh5.toNat)) ∧
    (s.xlen = .rv64 →
      ComputesX (.slli rd rs1 sh6) s rd (ux s rs1 * 2 ^ sh6.toNat) ∧
      ComputesX (.srli rd rs1 sh6) s rd (ux s rs1 / 2 ^ sh6.toNat) ∧
      ComputesX (.srai rd rs1 sh6) s rd (sx s rs1 / 2 ^ sh6.toNat))

/-- The RV64 word instructions: 32-bit results, sign-extended, and frame.
41_rv64i.md R256 to R264. -/
def Obligations.WordFormResults : Prop :=
  ∀ (s : State) (rd rs1 rs2 : Reg) (imm : BitVec 12) (sh : BitVec 5), s.xlen = .rv64 →
    ComputesX (.addiw rd rs1 imm) s rd (wrap 32 (ux s rs1 + imm.toInt)) ∧
    ComputesX (.slliw rd rs1 sh) s rd (wrap 32 (uw s rs1 * 2 ^ sh.toNat)) ∧
    ComputesX (.srliw rd rs1 sh) s rd (wrap 32 (uw s rs1 / 2 ^ sh.toNat)) ∧
    ComputesX (.sraiw rd rs1 sh) s rd (sw s rs1 / 2 ^ sh.toNat) ∧
    ComputesX (.addw rd rs1 rs2) s rd (wrap 32 (ux s rs1 + ux s rs2)) ∧
    ComputesX (.subw rd rs1 rs2) s rd (wrap 32 (ux s rs1 - ux s rs2)) ∧
    ComputesX (.sllw rd rs1 rs2) s rd (wrap 32 (uw s rs1 * 2 ^ ((ux s rs2).toNat % 32))) ∧
    ComputesX (.srlw rd rs1 rs2) s rd (wrap 32 (uw s rs1 / 2 ^ ((ux s rs2).toNat % 32))) ∧
    ComputesX (.sraw rd rs1 rs2) s rd (sw s rs1 / 2 ^ ((ux s rs2).toNat % 32))

/-- MUL, MULH, MULHSU, MULHU and MULW: results and frame.
42_m.md R270 to R273, R278. -/
def Obligations.MultiplyResults : Prop :=
  ∀ (s : State) (rd rs1 rs2 : Reg),
    ComputesX (.mul rd rs1 rs2) s rd (ux s rs1 * ux s rs2) ∧
    ComputesX (.mulh rd rs1 rs2) s rd (sx s rs1 * sx s rs2 / size s) ∧
    ComputesX (.mulhsu rd rs1 rs2) s rd (sx s rs1 * ux s rs2 / size s) ∧
    ComputesX (.mulhu rd rs1 rs2) s rd (ux s rs1 * ux s rs2 / size s) ∧
    (s.xlen = .rv64 → ComputesX (.mulw rd rs1 rs2) s rd (wrap 32 (ux s rs1 * ux s rs2)))

/-- The divide and remainder instructions: results, division by zero, overflow and frame.
42_m.md R274 to R277, R279 to R282. -/
def Obligations.DivideResults : Prop :=
  ∀ (s : State) (rd rs1 rs2 : Reg),
    ComputesX (.div rd rs1 rs2) s rd (if ux s rs2 = 0 then -1 else (sx s rs1).tdiv (sx s rs2)) ∧
    ComputesX (.divu rd rs1 rs2) s rd (if ux s rs2 = 0 then -1 else ux s rs1 / ux s rs2) ∧
    ComputesX (.rem rd rs1 rs2) s rd (if ux s rs2 = 0 then ux s rs1 else (sx s rs1).tmod (sx s rs2)) ∧
    ComputesX (.remu rd rs1 rs2) s rd (if ux s rs2 = 0 then ux s rs1 else ux s rs1 % ux s rs2) ∧
    (s.xlen = .rv64 →
      ComputesX (.divw rd rs1 rs2) s rd (if uw s rs2 = 0 then -1 else wrap 32 ((sw s rs1).tdiv (sw s rs2))) ∧
      ComputesX (.divuw rd rs1 rs2) s rd (if uw s rs2 = 0 then -1 else wrap 32 (uw s rs1 / uw s rs2)) ∧
      ComputesX (.remw rd rs1 rs2) s rd (if uw s rs2 = 0 then sw s rs1 else (sw s rs1).tmod (sw s rs2)) ∧
      ComputesX (.remuw rd rs1 rs2) s rd (wrap 32 (if uw s rs2 = 0 then uw s rs1 else uw s rs1 % uw s rs2)))

/-- JAL and JALR write pc + 4 and go to their target: results and frame.
40_rv32i.md R202, R203; 90_conflicts.md C7. -/
def Obligations.JumpsLinkAndGo : Prop :=
  ∀ (s : State) (rd rs1 : Reg) (off : BitVec 21) (imm : BitVec 12),
    (s.params.ext.c = true ∨ ((s.pc.toNat : Int) + off.toInt) % size s % 4 = 0 →
      JumpsTo (.jal rd off) s rd (s.pc.toNat + 4) (s.pc.toNat + off.toInt)) ∧
    (s.params.ext.c = true ∨ (ux s rs1 + imm.toInt) % size s / 2 * 2 % 4 = 0 →
      JumpsTo (.jalr rd rs1 imm) s rd (s.pc.toNat + 4) ((ux s rs1 + imm.toInt) % size s / 2 * 2))

/-- The conditional branches go to pc + imm exactly when their condition holds: results and frame.
40_rv32i.md R204 to R209; 90_conflicts.md C7. Nothing is written: the register named is x0. -/
def Obligations.BranchesGoOrFallThrough : Prop :=
  ∀ (s : State) (rs1 rs2 : Reg) (off : BitVec 13) (i : Instr) (taken : Prop),
    (i = .beq rs1 rs2 off ∧ (taken ↔ ux s rs1 = ux s rs2)) ∨ (i = .bne rs1 rs2 off ∧ (taken ↔ ux s rs1 ≠ ux s rs2)) ∨
    (i = .blt rs1 rs2 off ∧ (taken ↔ sx s rs1 < sx s rs2)) ∨ (i = .bge rs1 rs2 off ∧ (taken ↔ sx s rs2 ≤ sx s rs1)) ∨
    (i = .bltu rs1 rs2 off ∧ (taken ↔ ux s rs1 < ux s rs2)) ∨ (i = .bgeu rs1 rs2 off ∧ (taken ↔ ux s rs2 ≤ ux s rs1)) →
    (taken → (s.params.ext.c = true ∨ ((s.pc.toNat : Int) + off.toInt) % size s % 4 = 0) →
      JumpsTo i s 0 0 (s.pc.toNat + off.toInt)) ∧
    (¬taken → JumpsTo i s 0 0 (s.pc.toNat + 4))

/-- Without compressed instructions a target that is no multiple of 4 is refused.
60_exceptions.md R401 condition 11, 90_conflicts.md C7. -/
def Obligations.MisalignedTargetsStop : Prop :=
  ∀ (s : State) (rd rs1 rs2 : Reg) (off : BitVec 21) (boff : BitVec 13) (imm : BitVec 12), s.params.ext.c = false →
    (((s.pc.toNat : Int) + off.toInt) % size s % 4 ≠ 0 → exec (.jal rd off) s = .refused .targetMisaligned) ∧
    ((ux s rs1 + imm.toInt) % size s / 2 * 2 % 4 ≠ 0 → exec (.jalr rd rs1 imm) s = .refused .targetMisaligned) ∧
    (((s.pc.toNat : Int) + boff.toInt) % size s % 4 ≠ 0 →
      (ux s rs1 = ux s rs2 → exec (.beq rs1 rs2 boff) s = .refused .targetMisaligned) ∧
      (ux s rs1 ≠ ux s rs2 → exec (.bne rs1 rs2 boff) s = .refused .targetMisaligned) ∧
      (sx s rs1 < sx s rs2 → exec (.blt rs1 rs2 boff) s = .refused .targetMisaligned) ∧
      (sx s rs2 ≤ sx s rs1 → exec (.bge rs1 rs2 boff) s = .refused .targetMisaligned) ∧
      (ux s rs1 < ux s rs2 → exec (.bltu rs1 rs2 boff) s = .refused .targetMisaligned) ∧
      (ux s rs2 ≤ ux s rs1 → exec (.bgeu rs1 rs2 boff) s = .refused .targetMisaligned))

/-- The integer loads: value, memory operations and frame.
40_rv32i.md R210 to R214, 41_rv64i.md R250, R251; 20_memory.md R55, R58. That the pieces are runs of adjacent bytes is
DEDUCED, the model's (log 12). -/
def Obligations.LoadsReadMemory : Prop :=
  ∀ (s : State) (rd rs1 : Reg) (imm : BitVec 12),
    (s.effAddr rs1 imm : Int) = (ux s rs1 + imm.toInt) % size s ∧
    LoadsX (.lb rd rs1 imm) s rd rs1 imm 1 (wrap 8) ∧ LoadsX (.lh rd rs1 imm) s rd rs1 imm 2 (wrap 16) ∧
    LoadsX (.lw rd rs1 imm) s rd rs1 imm 4 (wrap 32) ∧ LoadsX (.lbu rd rs1 imm) s rd rs1 imm 1 id ∧
    LoadsX (.lhu rd rs1 imm) s rd rs1 imm 2 id ∧
    (s.xlen = .rv64 → LoadsX (.lwu rd rs1 imm) s rd rs1 imm 4 id ∧ LoadsX (.ld rd rs1 imm) s rd rs1 imm 8 id)

/-- The integer stores: bytes written, memory operations and frame.
40_rv32i.md R215 to R217, 41_rv64i.md R252; 20_memory.md R55, R58. That the pieces are runs of adjacent bytes is
DEDUCED, the model's (log 12). -/
def Obligations.StoresWriteMemory : Prop :=
  ∀ (s : State) (rs2 rs1 : Reg) (imm : BitVec 12),
    (s.effAddr rs1 imm : Int) = (ux s rs1 + imm.toInt) % size s ∧
    StoresFrom (.sb rs2 rs1 imm) s rs1 imm 1 (ux s rs2) false ∧ StoresFrom (.sh rs2 rs1 imm) s rs1 imm 2 (ux s rs2) false ∧
    StoresFrom (.sw rs2 rs1 imm) s rs1 imm 4 (ux s rs2) false ∧
    (s.xlen = .rv64 → StoresFrom (.sd rs2 rs1 imm) s rs1 imm 8 (ux s rs2) false)

/-- FLW, FSW, FLD and FSD: patterns moved unchanged, memory operations and frame.
44_f.md R320, R321; 45_d.md R360, R361; 20_memory.md R55, R57, R58. That the pieces, also of an aligned FLD or
FSD on RV32, are runs of adjacent bytes is DEDUCED, the model's (log 12). -/
def Obligations.FloatLoadsAndStores : Prop :=
  ∀ (s : State) (rd rs2 rs1 : Reg) (imm : BitVec 12),
    LoadsF (.flw rd rs1 imm) s rd rs1 imm 4 (fun v => boxed s v.toNat) false ∧
    StoresFrom (.fsw rs2 rs1 imm) s rs1 imm 4 (s.readF rs2).toNat false ∧
    (s.params.ext.d = true →
      LoadsF (.fld rd rs1 imm) s rd rs1 imm 8 id true ∧ StoresFrom (.fsd rs2 rs1 imm) s rs1 imm 8 (s.readF rs2).toNat true)

/-- What stops a load or store, in order: misalignment, an io byte, the top of memory, fetched text.
60_exceptions.md R401 conditions 8 to 10, R403. That an io byte is looked for before the top of memory, both in condition 9, is
the model's choice (log 16), and so are that running past the top is a fault (log 5) and that a misaligned FLD or FSD on RV32 is
refused like the rest with MISALIGNED = refuse (log 24). -/
def Obligations.PlainAccessStops : Prop :=
  ∀ (s : State) (rd rs2 rs1 : Reg) (imm : BitVec 12),
    LoadStops (.lb rd rs1 imm) s (s.effAddr rs1 imm) 1 ∧ LoadStops (.lh rd rs1 imm) s (s.effAddr rs1 imm) 2 ∧
    LoadStops (.lw rd rs1 imm) s (s.effAddr rs1 imm) 4 ∧ LoadStops (.lbu rd rs1 imm) s (s.effAddr rs1 imm) 1 ∧
    LoadStops (.lhu rd rs1 imm) s (s.effAddr rs1 imm) 2 ∧ LoadStops (.lwu rd rs1 imm) s (s.effAddr rs1 imm) 4 ∧
    LoadStops (.ld rd rs1 imm) s (s.effAddr rs1 imm) 8 ∧ LoadStops (.flw rd rs1 imm) s (s.effAddr rs1 imm) 4 ∧
    LoadStops (.fld rd rs1 imm) s (s.effAddr rs1 imm) 8 ∧
    StoreStops (.sb rs2 rs1 imm) s (s.effAddr rs1 imm) 1 ∧ StoreStops (.sh rs2 rs1 imm) s (s.effAddr rs1 imm) 2 ∧
    StoreStops (.sw rs2 rs1 imm) s (s.effAddr rs1 imm) 4 ∧ StoreStops (.sd rs2 rs1 imm) s (s.effAddr rs1 imm) 8 ∧
    StoreStops (.fsw rs2 rs1 imm) s (s.effAddr rs1 imm) 4 ∧ StoreStops (.fsd rs2 rs1 imm) s (s.effAddr rs1 imm) 8

/-- The bytes a load returns: draws with several harts, the bytes of memory with one.
20_memory.md R98, R114. The draw list and the free values are the model's own (log 8); reading memory with one hart is log 6. -/
def Obligations.LoadedBytes : Prop :=
  ∀ (s : State) (a n : Nat),
    (s.memRead a n).length = n ∧
    (s.others = [] → ∀ k, k < n → (s.memRead a n)[k]? = some (s.byteAt (a + k))) ∧
    (s.others ≠ [] → ∀ bs rest, s.draws.bytes = bs ++ rest → bs.length = n →
      s.memRead a n = bs ∧ (s.loaded a n).2 = { s.draws with bytes := rest }) ∧
    (s.others ≠ [] → s.draws.bytes = [] →
      s.memRead a n = (List.range n).map (fun k => Config.drawnByte (s.draws.count + k)) ∧
      (s.loaded a n).2 = { s.draws with count := s.draws.count + n })

/-- LR.W and LR.D: value, pairing state, annotations and frame.
43_a.md R290, R301; 20_memory.md R55, R59, R60. -/
def Obligations.LoadReservedEffect : Prop :=
  ∀ (s : State) (rd rs1 : Reg) (aq rl : Bool),
    LoadsReserved (.lrW rd rs1 aq rl) s rd rs1 4 aq rl ∧
    (s.xlen = .rv64 → LoadsReserved (.lrD rd rs1 aq rl) s rd rs1 8 aq rl)

/-- A successful SC.W or SC.D: the store, its pairing and annotations, x[rd] <- 0, and frame.
43_a.md R291, R302; 20_memory.md R59, R60, R107. -/
def Obligations.ScSuccessEffect : Prop :=
  ∀ (s : State) (rd rs2 rs1 : Reg) (aq rl : Bool),
    ScSucceeds (.scW rd rs2 rs1 aq rl) s rd rs2 rs1 4 aq rl ∧
    (s.xlen = .rv64 → ScSucceeds (.scD rd rs2 rs1 aq rl) s rd rs2 rs1 8 aq rl)

/-- An unsuccessful SC gives rise to no memory operation.
20_memory.md R56, R77, R107; 43_a.md R291, R302. That a failing SC completes at an io byte or fetched text too is DEDUCED, the
model's (log 16). -/
def Obligations.ScFailureEffect : Prop :=
  ∀ (s : State) (rd rs2 rs1 : Reg) (aq rl : Bool),
    ScFails (.scW rd rs2 rs1 aq rl) s rd rs1 4 ∧ (s.xlen = .rv64 → ScFails (.scD rd rs2 rs1 aq rl) s rd rs1 8) ∧
    ({ instr := .scW rd rs2 rs1 aq rl, scOk := false : Instance } : Instance).listing.destinations = [] ∧
    ({ instr := .scW rd rs2 rs1 aq rl, scOk := false : Instance } : Instance).listing.role = .sc ∧
    ({ instr := .scW rd rs2 rs1 aq rl, scOk := false : Instance } : Instance).listing.memory = false ∧
    ({ instr := .scD rd rs2 rs1 aq rl, scOk := false : Instance } : Instance).listing.destinations = [] ∧
    ({ instr := .scD rd rs2 rs1 aq rl, scOk := false : Instance } : Instance).listing.role = .sc ∧
    ({ instr := .scD rd rs2 rs1 aq rl, scOk := false : Instance } : Instance).listing.memory = false

/-- The AMOs: one operation that loads and stores, old value to x[rd], and frame.
43_a.md R292 to R300, R303 to R311; 20_memory.md R55, R60. -/
def Obligations.AmoEffects : Prop :=
  ∀ (s : State) (rd rs2 rs1 : Reg) (aq rl : Bool),
    AmoRuns (.amoswapW rd rs2 rs1 aq rl) s rd rs1 4 aq rl (fun _ => uw s rs2) ∧
    AmoRuns (.amoaddW rd rs2 rs1 aq rl) s rd rs1 4 aq rl (fun t => t + uw s rs2) ∧
    AmoRuns (.amoxorW rd rs2 rs1 aq rl) s rd rs1 4 aq rl (fun t => (t.toNat ^^^ (uw s rs2).toNat : Nat)) ∧
    AmoRuns (.amoandW rd rs2 rs1 aq rl) s rd rs1 4 aq rl (fun t => (t.toNat &&& (uw s rs2).toNat : Nat)) ∧
    AmoRuns (.amoorW rd rs2 rs1 aq rl) s rd rs1 4 aq rl (fun t => (t.toNat ||| (uw s rs2).toNat : Nat)) ∧
    AmoRuns (.amominW rd rs2 rs1 aq rl) s rd rs1 4 aq rl (fun t => min (wrap 32 t) (sw s rs2)) ∧
    AmoRuns (.amomaxW rd rs2 rs1 aq rl) s rd rs1 4 aq rl (fun t => max (wrap 32 t) (sw s rs2)) ∧
    AmoRuns (.amominuW rd rs2 rs1 aq rl) s rd rs1 4 aq rl (fun t => min t (uw s rs2)) ∧
    AmoRuns (.amomaxuW rd rs2 rs1 aq rl) s rd rs1 4 aq rl (fun t => max t (uw s rs2)) ∧
    (s.xlen = .rv64 →
      AmoRuns (.amoswapD rd rs2 rs1 aq rl) s rd rs1 8 aq rl (fun _ => ux s rs2) ∧
      AmoRuns (.amoaddD rd rs2 rs1 aq rl) s rd rs1 8 aq rl (fun t => t + ux s rs2) ∧
      AmoRuns (.amoxorD rd rs2 rs1 aq rl) s rd rs1 8 aq rl (fun t => (t.toNat ^^^ (ux s rs2).toNat : Nat)) ∧
      AmoRuns (.amoandD rd rs2 rs1 aq rl) s rd rs1 8 aq rl (fun t => (t.toNat &&& (ux s rs2).toNat : Nat)) ∧
      AmoRuns (.amoorD rd rs2 rs1 aq rl) s rd rs1 8 aq rl (fun t => (t.toNat ||| (ux s rs2).toNat : Nat)) ∧
      AmoRuns (.amominD rd rs2 rs1 aq rl) s rd rs1 8 aq rl (fun t => min (wrap 64 t) (sx s rs2)) ∧
      AmoRuns (.amomaxD rd rs2 rs1 aq rl) s rd rs1 8 aq rl (fun t => max (wrap 64 t) (sx s rs2)) ∧
      AmoRuns (.amominuD rd rs2 rs1 aq rl) s rd rs1 8 aq rl (fun t => min t (ux s rs2)) ∧
      AmoRuns (.amomaxuD rd rs2 rs1 aq rl) s rd rs1 8 aq rl (fun t => max t (ux s rs2)))

/-- A misaligned LR, SC or AMO is refused; an io byte or fetched text stops an aligned one.
20_memory.md R63, R104, R108; 60_exceptions.md R401 conditions 7, 9 and 10. That an SC is asked for an io byte and for text only
when it would succeed, and for its alignment always, is DEDUCED, the model's (log 16). -/
def Obligations.AtomicAccessStops : Prop :=
  ∀ (s : State) (rd rs2 rs1 : Reg) (aq rl : Bool),
    LrStops (.lrW rd rs1 aq rl) s (s.readX rs1).toNat 4 ∧ LrStops (.lrD rd rs1 aq rl) s (s.readX rs1).toNat 8 ∧
    ScStops (.scW rd rs2 rs1 aq rl) s (s.readX rs1).toNat 4 ∧ ScStops (.scD rd rs2 rs1 aq rl) s (s.readX rs1).toNat 8 ∧
    (∀ i, i = .amoswapW rd rs2 rs1 aq rl ∨ i = .amoaddW rd rs2 rs1 aq rl ∨ i = .amoxorW rd rs2 rs1 aq rl ∨
      i = .amoandW rd rs2 rs1 aq rl ∨ i = .amoorW rd rs2 rs1 aq rl ∨ i = .amominW rd rs2 rs1 aq rl ∨
      i = .amomaxW rd rs2 rs1 aq rl ∨ i = .amominuW rd rs2 rs1 aq rl ∨ i = .amomaxuW rd rs2 rs1 aq rl →
      AmoStops i s (s.readX rs1).toNat 4) ∧
    (∀ i, i = .amoswapD rd rs2 rs1 aq rl ∨ i = .amoaddD rd rs2 rs1 aq rl ∨ i = .amoxorD rd rs2 rs1 aq rl ∨
      i = .amoandD rd rs2 rs1 aq rl ∨ i = .amoorD rd rs2 rs1 aq rl ∨ i = .amominD rd rs2 rs1 aq rl ∨
      i = .amomaxD rd rs2 rs1 aq rl ∨ i = .amominuD rd rs2 rs1 aq rl ∨ i = .amomaxuD rd rs2 rs1 aq rl →
      AmoStops i s (s.readX rs1).toNat 8)

/-- The CSR instructions: old value, new value and frame; a CSR that is not held stops them.
40_rv32i.md R241 to R246; 10_state.md R28 to R30; 60_exceptions.md R401 condition 3, 92_eei_decisions.md D29. -/
def Obligations.CsrInstructions : Prop :=
  ∀ (s : State) (rd rs1 : Reg) (a : BitVec 12) (u : BitVec 5),
    CsrRuns (.csrrw rd a rs1) s rd a (csrSet a (fcsr s) (s.readX rs1).toNat) ∧
    CsrRuns (.csrrs rd a rs1) s rd a
      (if rs1 = 0 then fcsr s else csrSet a (fcsr s) (csrOf a (fcsr s) ||| (s.readX rs1).toNat)) ∧
    CsrRuns (.csrrc rd a rs1) s rd a
      (if rs1 = 0 then fcsr s else csrSet a (fcsr s) (Nat.ldiff (csrOf a (fcsr s)) (s.readX rs1).toNat)) ∧
    CsrRuns (.csrrwi rd a u) s rd a (csrSet a (fcsr s) u.toNat) ∧
    CsrRuns (.csrrsi rd a u) s rd a
      (if u = 0 then fcsr s else csrSet a (fcsr s) (csrOf a (fcsr s) ||| u.toNat)) ∧
    CsrRuns (.csrrci rd a u) s rd a
      (if u = 0 then fcsr s else csrSet a (fcsr s) (Nat.ldiff (csrOf a (fcsr s)) u.toNat)) ∧
    (a ≠ 1 → a ≠ 2 → a ≠ 3 →
      exec (.csrrw rd a rs1) s = .fault .csrNotHeld ∧ exec (.csrrs rd a rs1) s = .fault .csrNotHeld ∧
      exec (.csrrc rd a rs1) s = .fault .csrNotHeld ∧ exec (.csrrwi rd a u) s = .fault .csrNotHeld ∧
      exec (.csrrsi rd a u) s = .fault .csrNotHeld ∧ exec (.csrrci rd a u) s = .fault .csrNotHeld)

/-- FENCE and FENCE.I change no register and no memory, and their fields are no registers.
40_rv32i.md R237, R238; 20_memory.md R106. Nothing is written: the register named is x0. That a FENCE.I with reserved fields
that are not zero has no effect, rather than being no instruction, is the model's choice (log 27). -/
def Obligations.FencesTouchNothing : Prop :=
  ∀ (s : State) (fm pred succ : BitVec 4) (rs1 rd : Reg) (imm : BitVec 12) (i : Instr),
    i = .fence fm pred succ rs1 rd ∨ i = .fenceI imm rs1 rd →
    JumpsTo i s 0 0 (s.pc.toNat + 4) ∧
    (∀ t, exec i s = .next t → t.hart.deps = s.hart.deps ∧ t.hart.ctrl = s.hart.ctrl) ∧
    ∀ a b, fenceOrders (.fenceI imm rs1 rd) a b = false

/-- The stream of a hart ends at an ECALL or EBREAK.
60_exceptions.md R412, 40_rv32i.md R239, R240. That pc stays is the model's choice (log 10). -/
def Obligations.EcallEbreakEndTheStream : Prop :=
  (∀ (s : State) (i : Instr), i = .ecall ∨ i = .ebreak →
    Runs i s fun t => t.hart.ended = true ∧ t.pc = s.pc ∧ Logged i false s t ∧ XKept s t ∧ FKept s t ∧ CsrKept s t ∧
      LrKept s t ∧ NoMemoryEffect s t ∧ t.hart.deps = s.hart.deps ∧ t.hart.ctrl = s.hart.ctrl ∧ t.turn = .next t) ∧
  (∀ (i : Instr) (ok : Bool), i = .ecall ∨ i = .ebreak →
    (Machine.Instr.listing ok i).sources = [] ∧ (Machine.Instr.listing ok i).destinations = [] ∧
    (Machine.Instr.listing ok i).memory = false)

/-- Single-precision arithmetic and conversions with rounding: result, flags and frame.
44_f.md R322 to R330, R343, R344, R348, R349. The value functions are stated by `ArithmeticIsExactThenRounded` and after. -/
def Obligations.SingleArithmetic : Prop :=
  ∀ (s : State) (rd rs1 rs2 rs3 : Reg) (rm : BitVec 3) (r : RoundMode), s.rounding rm = some r →
    ComputesS (.fmaddS rd rs1 rs2 rs3 rm) s rd (cellOf true false true true true)
      (Fmt.single.fmadd r (s.readS rs1) (s.readS rs2) (s.readS rs3)) ∧
    ComputesS (.fmsubS rd rs1 rs2 rs3 rm) s rd (cellOf true false true true true)
      (Fmt.single.fmsub r (s.readS rs1) (s.readS rs2) (s.readS rs3)) ∧
    ComputesS (.fnmsubS rd rs1 rs2 rs3 rm) s rd (cellOf true false true true true)
      (Fmt.single.fnmsub r (s.readS rs1) (s.readS rs2) (s.readS rs3)) ∧
    ComputesS (.fnmaddS rd rs1 rs2 rs3 rm) s rd (cellOf true false true true true)
      (Fmt.single.fnmadd r (s.readS rs1) (s.readS rs2) (s.readS rs3)) ∧
    ComputesS (.faddS rd rs1 rs2 rm) s rd (cellOf true false true false true)
      (Fmt.single.add r (s.readS rs1) (s.readS rs2)) ∧
    ComputesS (.fsubS rd rs1 rs2 rm) s rd (cellOf true false true false true)
      (Fmt.single.sub r (s.readS rs1) (s.readS rs2)) ∧
    ComputesS (.fmulS rd rs1 rs2 rm) s rd (cellOf true false true true true)
      (Fmt.single.mul r (s.readS rs1) (s.readS rs2)) ∧
    ComputesS (.fdivS rd rs1 rs2 rm) s rd (cellOf true true true true true)
      (Fmt.single.div r (s.readS rs1) (s.readS rs2)) ∧
    ComputesS (.fsqrtS rd rs1 rm) s rd (cellOf true false false false true) (Fmt.single.sqrt r (s.readS rs1)) ∧
    ComputesS (.fcvtSW rd rs1 rm) s rd (cellOf false false false false true) (Fmt.single.ofInt r (sw s rs1)) ∧
    ComputesS (.fcvtSWU rd rs1 rm) s rd (cellOf false false false false true) (Fmt.single.ofInt r (uw s rs1)) ∧
    (s.xlen = .rv64 →
      ComputesS (.fcvtSL rd rs1 rm) s rd (cellOf false false false false true) (Fmt.single.ofInt r (sx s rs1)) ∧
      ComputesS (.fcvtSLU rd rs1 rm) s rd (cellOf false false false false true) (Fmt.single.ofInt r (ux s rs1)))

/-- Double-precision arithmetic and conversions: result, flags and frame.
45_d.md R362 to R370, R376, R377, R384, R385, R389, R390. That a reserved mode stops FCVT.D.S, FCVT.D.W and FCVT.D.WU too is
DEDUCED (log 11): here the mode is not reserved. -/
def Obligations.DoubleArithmetic : Prop :=
  ∀ (s : State) (rd rs1 rs2 rs3 : Reg) (rm : BitVec 3) (r : RoundMode), s.params.ext.d = true → s.rounding rm = some r →
    ComputesD (.fmaddD rd rs1 rs2 rs3 rm) s rd (cellOf true false true true true)
      (Fmt.double.fmadd r (s.readD rs1) (s.readD rs2) (s.readD rs3)) ∧
    ComputesD (.fmsubD rd rs1 rs2 rs3 rm) s rd (cellOf true false true true true)
      (Fmt.double.fmsub r (s.readD rs1) (s.readD rs2) (s.readD rs3)) ∧
    ComputesD (.fnmsubD rd rs1 rs2 rs3 rm) s rd (cellOf true false true true true)
      (Fmt.double.fnmsub r (s.readD rs1) (s.readD rs2) (s.readD rs3)) ∧
    ComputesD (.fnmaddD rd rs1 rs2 rs3 rm) s rd (cellOf true false true true true)
      (Fmt.double.fnmadd r (s.readD rs1) (s.readD rs2) (s.readD rs3)) ∧
    ComputesD (.faddD rd rs1 rs2 rm) s rd (cellOf true false true false true)
      (Fmt.double.add r (s.readD rs1) (s.readD rs2)) ∧
    ComputesD (.fsubD rd rs1 rs2 rm) s rd (cellOf true false true false true)
      (Fmt.double.sub r (s.readD rs1) (s.readD rs2)) ∧
    ComputesD (.fmulD rd rs1 rs2 rm) s rd (cellOf true false true true true)
      (Fmt.double.mul r (s.readD rs1) (s.readD rs2)) ∧
    ComputesD (.fdivD rd rs1 rs2 rm) s rd (cellOf true true true true true)
      (Fmt.double.div r (s.readD rs1) (s.readD rs2)) ∧
    ComputesD (.fsqrtD rd rs1 rm) s rd (cellOf true false false false true) (Fmt.double.sqrt r (s.readD rs1)) ∧
    ComputesS (.fcvtSD rd rs1 rm) s rd (cellOf true false true true true)
      (Fmt.convert .double .single r (s.readD rs1)) ∧
    ComputesD (.fcvtDS rd rs1 rm) s rd (cellOf true false false false false)
      (Fmt.convert .single .double r (s.readS rs1)) ∧
    ComputesD (.fcvtDW rd rs1 rm) s rd 0 (Fmt.double.ofInt r (sw s rs1)) ∧
    ComputesD (.fcvtDWU rd rs1 rm) s rd 0 (Fmt.double.ofInt r (uw s rs1)) ∧
    (s.xlen = .rv64 →
      ComputesD (.fcvtDL rd rs1 rm) s rd (cellOf false false false false true) (Fmt.double.ofInt r (sx s rs1)) ∧
      ComputesD (.fcvtDLU rd rs1 rm) s rd (cellOf false false false false true) (Fmt.double.ofInt r (ux s rs1)))

/-- FSGNJ, FMIN, FMAX and the moves into f registers: result, flags and frame.
44_f.md R331 to R335, R345; 45_d.md R371 to R375, R391. -/
def Obligations.SignMinMaxAndMoves : Prop :=
  ∀ (s : State) (rd rs1 rs2 : Reg),
    ComputesF (.fsgnjS rd rs1 rs2) s rd (boxed s (s.readS rs1 % 2 ^ 31 + s.readS rs2 / 2 ^ 31 * 2 ^ 31)) 0 0 ∧
    ComputesF (.fsgnjnS rd rs1 rs2) s rd (boxed s (s.readS rs1 % 2 ^ 31 + (1 - s.readS rs2 / 2 ^ 31) * 2 ^ 31)) 0 0 ∧
    ComputesF (.fsgnjxS rd rs1 rs2) s rd
      (boxed s (s.readS rs1 % 2 ^ 31 + (s.readS rs1 / 2 ^ 31 + s.readS rs2 / 2 ^ 31) % 2 * 2 ^ 31)) 0 0 ∧
    ComputesS (.fminS rd rs1 rs2) s rd (cellOf true false false false false) (Fmt.single.min (s.readS rs1) (s.readS rs2)) ∧
    ComputesS (.fmaxS rd rs1 rs2) s rd (cellOf true false false false false) (Fmt.single.max (s.readS rs1) (s.readS rs2)) ∧
    ComputesF (.fmvWX rd rs1) s rd (boxed s (s.readX rs1).toNat) 0 0 ∧
    (s.params.ext.d = true →
      ComputesF (.fsgnjD rd rs1 rs2) s rd (s.readD rs1 % 2 ^ 63 + s.readD rs2 / 2 ^ 63 * 2 ^ 63 : Nat) 0 0 ∧
      ComputesF (.fsgnjnD rd rs1 rs2) s rd (s.readD rs1 % 2 ^ 63 + (1 - s.readD rs2 / 2 ^ 63) * 2 ^ 63 : Nat) 0 0 ∧
      ComputesF (.fsgnjxD rd rs1 rs2) s rd
        (s.readD rs1 % 2 ^ 63 + (s.readD rs1 / 2 ^ 63 + s.readD rs2 / 2 ^ 63) % 2 * 2 ^ 63 : Nat) 0 0 ∧
      ComputesD (.fminD rd rs1 rs2) s rd (cellOf true false false false false)
        (Fmt.double.min (s.readD rs1) (s.readD rs2)) ∧
      ComputesD (.fmaxD rd rs1 rs2) s rd (cellOf true false false false false)
        (Fmt.double.max (s.readD rs1) (s.readD rs2)) ∧
      (s.xlen = .rv64 → ComputesF (.fmvDX rd rs1) s rd (ux s rs1) 0 0))

/-- FEQ, FLT, FLE, FCLASS and the moves into x registers: result, flags and frame.
44_f.md R338 to R342; 45_d.md R378 to R381, R388. -/
def Obligations.CompareClassifyAndMoves : Prop :=
  ∀ (s : State) (rd rs1 rs2 : Reg),
    ComputesXF (.feqS rd rs1 rs2) s rd (bit ((Fmt.single.eq (s.readS rs1) (s.readS rs2)).1 = true))
      (cellOf true false false false false) (Fmt.single.eq (s.readS rs1) (s.readS rs2)).2 ∧
    ComputesXF (.fltS rd rs1 rs2) s rd (bit ((Fmt.single.lt (s.readS rs1) (s.readS rs2)).1 = true))
      (cellOf true false false false false) (Fmt.single.lt (s.readS rs1) (s.readS rs2)).2 ∧
    ComputesXF (.fleS rd rs1 rs2) s rd (bit ((Fmt.single.le (s.readS rs1) (s.readS rs2)).1 = true))
      (cellOf true false false false false) (Fmt.single.le (s.readS rs1) (s.readS rs2)).2 ∧
    ComputesX (.fclassS rd rs1) s rd (2 ^ Fmt.single.classBit (s.readS rs1)) ∧
    ComputesX (.fmvXW rd rs1) s rd (wrap 32 (s.readF rs1).toNat) ∧
    (s.params.ext.d = true →
      ComputesXF (.feqD rd rs1 rs2) s rd (bit ((Fmt.double.eq (s.readD rs1) (s.readD rs2)).1 = true))
        (cellOf true false false false false) (Fmt.double.eq (s.readD rs1) (s.readD rs2)).2 ∧
      ComputesXF (.fltD rd rs1 rs2) s rd (bit ((Fmt.double.lt (s.readD rs1) (s.readD rs2)).1 = true))
        (cellOf true false false false false) (Fmt.double.lt (s.readD rs1) (s.readD rs2)).2 ∧
      ComputesXF (.fleD rd rs1 rs2) s rd (bit ((Fmt.double.le (s.readD rs1) (s.readD rs2)).1 = true))
        (cellOf true false false false false) (Fmt.double.le (s.readD rs1) (s.readD rs2)).2 ∧
      ComputesX (.fclassD rd rs1) s rd (2 ^ Fmt.double.classBit (s.readD rs1)) ∧
      (s.xlen = .rv64 → ComputesX (.fmvXD rd rs1) s rd (s.readF rs1).toNat))

/-- FCVT from floating point to an integer: saturated result sign-extended, flags and frame.
44_f.md R336, R337, R346, R347; 45_d.md R382, R383, R386, R387. -/
def Obligations.FloatToInteger : Prop :=
  ∀ (s : State) (rd rs1 : Reg) (rm : BitVec 3) (r : RoundMode), s.rounding rm = some r →
    (∀ (i : Instr) (f : Fmt) (a : Nat) (signed : Bool) (n : Nat),
      (i = .fcvtWS rd rs1 rm ∧ f = .single ∧ a = s.readS rs1 ∧ signed = true ∧ n = 32) ∨
      (i = .fcvtWUS rd rs1 rm ∧ f = .single ∧ a = s.readS rs1 ∧ signed = false ∧ n = 32) ∨
      (s.xlen = .rv64 ∧ i = .fcvtLS rd rs1 rm ∧ f = .single ∧ a = s.readS rs1 ∧ signed = true ∧ n = 64) ∨
      (s.xlen = .rv64 ∧ i = .fcvtLUS rd rs1 rm ∧ f = .single ∧ a = s.readS rs1 ∧ signed = false ∧ n = 64) ∨
      (s.params.ext.d = true ∧ i = .fcvtWD rd rs1 rm ∧ f = .double ∧ a = s.readD rs1 ∧ signed = true ∧ n = 32) ∨
      (s.params.ext.d = true ∧ i = .fcvtWUD rd rs1 rm ∧ f = .double ∧ a = s.readD rs1 ∧ signed = false ∧ n = 32) ∨
      (s.params.ext.d = true ∧ s.xlen = .rv64 ∧ i = .fcvtLD rd rs1 rm ∧ f = .double ∧ a = s.readD rs1 ∧ signed = true ∧
        n = 64) ∨
      (s.params.ext.d = true ∧ s.xlen = .rv64 ∧ i = .fcvtLUD rd rs1 rm ∧ f = .double ∧ a = s.readD rs1 ∧ signed = false ∧
        n = 64) →
      ∃ (lo hi v : Int) (raised : BitVec 5),
        lo = (if signed = true then -2 ^ (n - 1) else 0) ∧ hi = (if signed = true then 2 ^ (n - 1) - 1 else 2 ^ n - 1) ∧
        ComputesXF i s rd (wrap n v) (cellOf true false false false true) raised ∧
        (match f.datum a with
          | .nan _ => v = hi ∧ raised = flagNV
          | .inf neg => v = (if neg then lo else hi) ∧ raised = flagNV
          | .fin _ _ _ =>
            ∃ (x : ℝ) (k : Int), valueOf f a = some x ∧ RoundsToInt r x k ∧ v = max lo (min hi k) ∧
              (k < lo ∨ hi < k → raised = flagNV) ∧ (lo ≤ k → k ≤ hi → (k : ℝ) = x → raised = 0) ∧
              (lo ≤ k → k ≤ hi → (k : ℝ) ≠ x → raised = flagNX)))

/-- The rounding mode of an instruction, and the reserved modes.
30_encoding.md R139, 10_state.md R29, 60_exceptions.md R401 condition 2. For FCVT.D.S, FCVT.D.W and FCVT.D.WU: log 11. -/
def Obligations.ReservedRoundingStops : Prop :=
  (∀ (s : State), s.rounding 0 = some .rne ∧ s.rounding 1 = some .rtz ∧ s.rounding 2 = some .rdn ∧
    s.rounding 3 = some .rup ∧ s.rounding 4 = some .rmm ∧ s.rounding 5 = none ∧ s.rounding 6 = none ∧
    (s.hart.frm ≠ 7 → s.rounding 7 = s.rounding s.hart.frm) ∧ (s.hart.frm = 7 → s.rounding 7 = none)) ∧
  (∀ (s : State) (rd rs1 rs2 rs3 : Reg) (rm : BitVec 3), s.rounding rm = none →
    ∀ i ∈ [Instr.fmaddS rd rs1 rs2 rs3 rm, .fmsubS rd rs1 rs2 rs3 rm, .fnmsubS rd rs1 rs2 rs3 rm, .fnmaddS rd rs1 rs2 rs3 rm,
      .faddS rd rs1 rs2 rm, .fsubS rd rs1 rs2 rm, .fmulS rd rs1 rs2 rm, .fdivS rd rs1 rs2 rm, .fsqrtS rd rs1 rm,
      .fcvtWS rd rs1 rm, .fcvtWUS rd rs1 rm, .fcvtLS rd rs1 rm, .fcvtLUS rd rs1 rm, .fcvtSW rd rs1 rm, .fcvtSWU rd rs1 rm,
      .fcvtSL rd rs1 rm, .fcvtSLU rd rs1 rm,
      .fmaddD rd rs1 rs2 rs3 rm, .fmsubD rd rs1 rs2 rs3 rm, .fnmsubD rd rs1 rs2 rs3 rm, .fnmaddD rd rs1 rs2 rs3 rm,
      .faddD rd rs1 rs2 rm, .fsubD rd rs1 rs2 rm, .fmulD rd rs1 rs2 rm, .fdivD rd rs1 rs2 rm, .fsqrtD rd rs1 rm,
      .fcvtSD rd rs1 rm, .fcvtDS rd rs1 rm, .fcvtWD rd rs1 rm, .fcvtWUD rd rs1 rm, .fcvtDW rd rs1 rm, .fcvtDWU rd rs1 rm,
      .fcvtLD rd rs1 rm, .fcvtLUD rd rs1 rm, .fcvtDL rd rs1 rm, .fcvtDLU rd rs1 rm],
      exec i s = .fault .reservedRounding) ∧
  (∀ (r q : RoundMode) (a : Nat) (v : Int), -2 ^ 31 ≤ v → v < 2 ^ 32 →
    Fmt.convert .single .double r a = Fmt.convert .single .double q a ∧ Fmt.double.ofInt r v = Fmt.double.ofInt q v)

/-- A single-precision value is boxed when written and unboxed when read.
44_f.md header; 10_state.md R24. -/
def Obligations.NanBoxing : Prop :=
  ∀ (s : State) (r : Reg) (v : Nat),
    (s.writeS r v).readS r = v % 2 ^ 32 ∧ (((s.writeS r v).readF r).toNat : Int) = boxed s v ∧
    (s.params.ext.d = true →
      ((s.readF r).toNat / 2 ^ 32 = 2 ^ 32 - 1 → s.readS r = (s.readF r).toNat % 2 ^ 32) ∧
      ((s.readF r).toNat / 2 ^ 32 ≠ 2 ^ 32 - 1 → s.readS r = 0x7FC00000)) ∧
    (s.params.ext.d = false → s.readS r = (s.readF r).toNat)

/-- NaN and infinite operands: the canonical NaN, infinities and zeros, and when NV is raised.
44_f.md R322 to R330, R339 to R341; 45_d.md R362 to R370, R376, R377; details of IEEE 754-2008: log 14. -/
def Obligations.NanAndInfiniteOperands : Prop :=
  ∀ (f g : Fmt) (r : RoundMode) (a b c : Nat), Standard f → Standard g →
    ((f.datum a).isNan = true ∨ (f.datum b).isNan = true →
      ∀ q, q = (f.canonicalNan, if (f.datum a).isSignaling || (f.datum b).isSignaling then flagNV else 0) →
        f.add r a b = q ∧ f.sub r a b = q ∧ f.mul r a b = q ∧ f.div r a b = q) ∧
    ((f.datum a).isNan = true →
      f.sqrt r a = (f.canonicalNan, if (f.datum a).isSignaling then flagNV else 0) ∧
      Fmt.convert f g r a = (g.canonicalNan, if (f.datum a).isSignaling then flagNV else 0)) ∧
    ((f.datum a).isNan = true ∨ (f.datum b).isNan = true →
      ∀ q, q = (f.canonicalNan,
          if (f.datum a).isSignaling || (f.datum b).isSignaling || (f.datum c).isSignaling then flagNV else 0) →
        f.fmadd r a b c = q ∧ f.fmsub r a b c = q ∧ f.fnmsub r a b c = q ∧ f.fnmadd r a b c = q) ∧
    ((f.datum a).isNan = true ∨ (f.datum b).isNan = true →
      f.eq a b = (false, if (f.datum a).isSignaling || (f.datum b).isSignaling then flagNV else 0) ∧
      f.lt a b = (false, flagNV) ∧ f.le a b = (false, flagNV)) ∧
    (∀ n nan, f.datum a = .inf n → (f.datum b).isNan = false → nan = (f.canonicalNan, flagNV) →
      (f.datum b = .inf (!n) → f.add r a b = nan ∧ f.add r b a = nan) ∧
      (f.datum b ≠ .inf (!n) → f.add r a b = (f.withSign n f.infBits, 0) ∧ f.add r b a = (f.withSign n f.infBits, 0)) ∧
      (f.datum b = .inf n → f.sub r a b = nan) ∧
      (f.datum b ≠ .inf n → f.sub r a b = (f.withSign n f.infBits, 0) ∧ f.sub r b a = (f.withSign (!n) f.infBits, 0)) ∧
      (valueOf f b = some 0 → f.mul r a b = nan ∧ f.mul r b a = nan) ∧
      (valueOf f b ≠ some 0 → f.mul r a b = (f.withSign (n != f.neg b) f.infBits, 0) ∧
        f.mul r b a = (f.withSign (n != f.neg b) f.infBits, 0)) ∧
      ((∃ m, f.datum b = .inf m) → f.div r a b = nan) ∧
      ((∀ m, f.datum b ≠ .inf m) → f.div r a b = (f.withSign (n != f.neg b) f.infBits, 0) ∧
        f.div r b a = (f.withSign (f.neg b != n) 0, 0))) ∧
    (∀ n, f.datum a = .inf n →
      f.sqrt r a = (if n then (f.canonicalNan, flagNV) else (f.infBits, 0)) ∧
      Fmt.convert f g r a = (g.withSign n g.infBits, 0)) ∧
    (∀ (out : FpResult) (np nc : Bool),
      (out = f.fmadd r a b c ∧ np = (f.neg a != f.neg b) ∧ nc = f.neg c) ∨
      (out = f.fmsub r a b c ∧ np = (f.neg a != f.neg b) ∧ nc = !f.neg c) ∨
      (out = f.fnmsub r a b c ∧ np = !(f.neg a != f.neg b) ∧ nc = f.neg c) ∨
      (out = f.fnmadd r a b c ∧ np = !(f.neg a != f.neg b) ∧ nc = !f.neg c) →
      (InfTimesZero f a b → out = (f.canonicalNan, flagNV)) ∧
      ((f.datum a).isNan = false → (f.datum b).isNan = false → ¬InfTimesZero f a b →
        ((f.datum c).isNan = true → out = (f.canonicalNan, if (f.datum c).isSignaling then flagNV else 0)) ∧
        ((f.datum c).isNan = false → (IsInf f a ∨ IsInf f b) →
          (IsInf f c → nc ≠ np → out = (f.canonicalNan, flagNV)) ∧
          (¬IsInf f c ∨ nc = np → out = (f.withSign np f.infBits, 0))) ∧
        (IsInf f c → ¬IsInf f a → ¬IsInf f b → out = (f.withSign nc f.infBits, 0)))) ∧
    Fmt.single.canonicalNan = 0x7FC00000

/-- Comparisons, minimum, maximum and classes follow the values of the patterns.
44_f.md R334, R335, R339 to R342; 45_d.md R374, R375, R378 to R381. Details of IEEE 754-2008: log 14. -/
def Obligations.ComparisonsAndClasses : Prop :=
  ∀ (f : Fmt) (a b : Nat), Standard f →
    (∀ p q, extendedOf f a = some p → extendedOf f b = some q →
      ((f.eq a b).1 = true ↔ p = q) ∧ ((f.lt a b).1 = true ↔ p < q) ∧ ((f.le a b).1 = true ↔ p ≤ q) ∧
      (f.eq a b).2 = 0 ∧ (f.lt a b).2 = 0 ∧ (f.le a b).2 = 0 ∧
      (p < q → f.min a b = (a, 0) ∧ f.max a b = (b, 0)) ∧ (q < p → f.min a b = (b, 0) ∧ f.max a b = (a, 0)) ∧
      (p = q → f.min a b = (if f.neg a then a else b, 0) ∧ f.max a b = (if f.neg a then b else a, 0))) ∧
    (∀ fl, fl = (if (f.datum a).isSignaling || (f.datum b).isSignaling then flagNV else 0) →
      ((f.datum a).isNan = true → (f.datum b).isNan = false → f.min a b = (b, fl) ∧ f.max a b = (b, fl)) ∧
      ((f.datum a).isNan = false → (f.datum b).isNan = true → f.min a b = (a, fl) ∧ f.max a b = (a, fl)) ∧
      ((f.datum a).isNan = true → (f.datum b).isNan = true →
        f.min a b = (f.canonicalNan, fl) ∧ f.max a b = (f.canonicalNan, fl))) ∧
    (∀ v, valueOf f a = some v →
      (v ≤ -minNormal f → f.classBit a = 1) ∧ (-minNormal f < v → v < 0 → f.classBit a = 2) ∧
      (v = 0 → f.classBit a = if f.neg a then 3 else 4) ∧
      (0 < v → v < minNormal f → f.classBit a = 5) ∧ (minNormal f ≤ v → f.classBit a = 6)) ∧
    (∀ n, f.datum a = .inf n → f.classBit a = if n then 0 else 7) ∧
    (∀ sg, f.datum a = .nan sg → (f.classBit a = if sg then 8 else 9) ∧
      a / 2 ^ (f.fracBits - 1) % 2 = if sg then 0 else 1)

/-- Rounding to single and double precision is correct in every mode, with its flags.
10_state.md R29 and the header of 44_f.md (`round_rm`, underflow detected after rounding). Details of IEEE 754-2008: log 14. -/
def Obligations.RoundingIsCorrect : Prop :=
  ∀ (f : Fmt) (rm : RoundMode) (neg : Bool) (m : Nat) (e : Int), Standard f → 0 < m →
    CorrectlyRounded f rm ((if neg then -1 else 1) * (m : ℝ) * (2 : ℝ) ^ e) (f.round rm neg m e)

/-- Sums, products and fused operations are the exact result, rounded once; the sign of an exact zero.
44_f.md R322 to R325 and 45_d.md R362 to R365 ("one rounding only"); 44_f.md R326 to R328, R343; 45_d.md R376, R377. Details of
IEEE 754-2008, the signs of exact zeros among them: log 14 (PRESUMED). -/
def Obligations.ArithmeticIsExactThenRounded : Prop :=
  ∀ (f g : Fmt) (rm : RoundMode) (a b c : Nat) (p q r : ℝ), Standard f → Standard g →
    valueOf f a = some p → valueOf f b = some q → valueOf f c = some r →
    ∀ (x : ℝ) (out : FpResult) (dst : Fmt) (z : Bool),
      (x = p + q ∧ out = f.add rm a b ∧ dst = f ∧ z = zeroSign rm (f.neg a) (f.neg b)) ∨
      (x = p - q ∧ out = f.sub rm a b ∧ dst = f ∧ z = zeroSign rm (f.neg a) (!f.neg b)) ∨
      (x = p * q ∧ out = f.mul rm a b ∧ dst = f ∧ z = (f.neg a != f.neg b)) ∨
      (x = p * q + r ∧ out = f.fmadd rm a b c ∧ dst = f ∧ z = zeroSign rm (f.neg a != f.neg b) (f.neg c)) ∨
      (x = p * q - r ∧ out = f.fmsub rm a b c ∧ dst = f ∧ z = zeroSign rm (f.neg a != f.neg b) (!f.neg c)) ∨
      (x = -(p * q) + r ∧ out = f.fnmsub rm a b c ∧ dst = f ∧ z = zeroSign rm (!(f.neg a != f.neg b)) (f.neg c)) ∨
      (x = -(p * q) - r ∧ out = f.fnmadd rm a b c ∧ dst = f ∧ z = zeroSign rm (!(f.neg a != f.neg b)) (!f.neg c)) ∨
      (x = p ∧ out = Fmt.convert f g rm a ∧ dst = g ∧ z = f.neg a) ∨
      (∃ v : Int, x = (v : ℝ) ∧ out = f.ofInt rm v ∧ dst = f ∧ z = false) →
      (x ≠ 0 → ∃ (neg : Bool) (m : Nat) (e : Int), 0 < m ∧ x = (if neg then -1 else 1) * (m : ℝ) * (2 : ℝ) ^ e ∧ out = dst.round rm neg m e) ∧
      (x = 0 → valueOf dst out.1 = some 0 ∧ out = (dst.withSign z 0, 0))

/-- Quotients and square roots are correctly rounded, with their flags and signs.
44_f.md R329, R330; 45_d.md R369, R370. Details of IEEE 754-2008: log 14. -/
def Obligations.QuotientAndRootAreCorrect : Prop :=
  ∀ (f : Fmt) (rm : RoundMode) (a b : Nat) (p q : ℝ), Standard f → valueOf f a = some p → valueOf f b = some q →
    (q ≠ 0 → CorrectlyRounded f rm (p / q) (f.div rm a b) ∧ f.neg (f.div rm a b).1 = (f.neg a != f.neg b)) ∧
    (q = 0 → p ≠ 0 → f.div rm a b = (f.withSign (f.neg a != f.neg b) f.infBits, flagDZ)) ∧
    (q = 0 → p = 0 → f.div rm a b = (f.canonicalNan, flagNV)) ∧
    (0 ≤ p → CorrectlyRounded f rm (Real.sqrt p) (f.sqrt rm a)) ∧
    (p = 0 → f.sqrt rm a = (f.withSign (f.neg a) 0, 0)) ∧
    (p < 0 → f.sqrt rm a = (f.canonicalNan, flagNV))

/-- Own stores are seen, and per-byte coherence of one hart's accesses.
20_memory.md R111, R112. -/
def Obligations.PerByteCoherence : Prop :=
  ∀ (E : Execution) (gmo : Event → Event → Prop) (x : Nat), E.LegalWith gmo →
    (∀ s i, E.ops s → s.isStore = true → s.has x → E.ops i → i.isLoad = true → i.has x → po s i →
      ∃ e, E.event e ∧ e.writes x ∧ (e = .op s ∨ gmo (.op s) e) ∧ E.rf gmo e i x ∧ i.returned x = E.written e x) ∧
    (AllMain E →
      (∀ s t, E.ops s → E.ops t → s.isStore = true → t.isStore = true → s.has x → t.has x → po s t →
        gmo (.op s) (.op t)) ∧
      (∀ i s e, E.ops i → i.isLoad = true → i.has x → E.ops s → s.isStore = true → s.has x → po i s → E.rf gmo e i x →
        e ≠ .op s ∧ ¬ gmo (.op s) e) ∧
      (∀ a b e f, E.ops a → E.ops b → a.isLoad = true → b.isLoad = true → a.has x → b.has x → po a b →
        E.rf gmo e a x → E.rf gmo f b x → f = e ∨ gmo e f))

/-- With one hart every load returns the latest earlier store of its program order.
20_memory.md R114. -/
def Obligations.SingleHartReadsInOrder : Prop :=
  ∀ (E : Execution) (gmo : Event → Event → Prop) (h : Nat), E.LegalWith gmo → AllMain E → DisjointParts E →
    (∀ o, E.ops o → o.hart = h) →
    ∀ i x, E.ops i → i.isLoad = true → i.has x →
      (∃ s, E.ops s ∧ s.isStore = true ∧ s.has x ∧ po s i ∧
        (∀ s', E.ops s' → s'.isStore = true → s'.has x → po s' i → s' = s ∨ po s' s) ∧
        i.returned x = s.stored[x - s.addr]?) ∨
      ((∀ s, E.ops s → s.isStore = true → s.has x → ¬ po s i) ∧ i.returned x = some (E.init x))

/-- What a FENCE orders and what it leaves unordered, and the acquire, release and RCsc annotations.
20_memory.md R84 to R87. That fm = 1000 with sets that are not both RW acts as fm = 0000 is the model's choice, no rule of the
spec (log 22). -/
def Obligations.SynchronisationOrders : Prop :=
  (∀ (a b : MemOp) (fm pred succ : BitVec 4) (rs1 rd : Reg) (tso : Prop),
    (tso ↔ fm = 8 ∧ pred = 3 ∧ succ = 3 ∧ rs1 = 0 ∧ rd = 0) →
    (tso → (fenceOrders (.fence fm pred succ rs1 rd) a b = true ↔
      a.isLoad = true ∨ (a.isStore = true ∧ b.isStore = true))) ∧
    (¬tso → (fenceOrders (.fence fm pred succ rs1 rd) a b = true ↔
      ((a.isLoad = true ∧ pred.getLsbD 1 = true) ∨ (a.isStore = true ∧ pred.getLsbD 0 = true)) ∧
      ((b.isLoad = true ∧ succ.getLsbD 1 = true) ∨ (b.isStore = true ∧ succ.getLsbD 0 = true))))) ∧
  (∀ (i : Instr) (a b : MemOp), (∀ fm pred succ rs1 rd, i ≠ .fence fm pred succ rs1 rd) → fenceOrders i a b = false) ∧
  (∀ (E : Execution) (gmo : Event → Event → Prop) (a b : MemOp), E.LegalWith gmo → E.ops a → E.ops b → po a b →
    a.region = .main → b.region = .main →
    (∀ k n, a.inst < k → k < b.inst → E.inst a.hart k = some n → fenceOrders n.instr a b = true → gmo (.op a) (.op b)) ∧
    (a.annot.acqRCpc = true ∨ a.annot.acqRCsc = true → gmo (.op a) (.op b)) ∧
    (b.annot.relRCpc = true ∨ b.annot.relRCsc = true → gmo (.op a) (.op b)) ∧
    ((a.annot.acqRCsc = true ∨ a.annot.relRCsc = true) → (b.annot.acqRCsc = true ∨ b.annot.relRCsc = true) →
      gmo (.op a) (.op b)))

/-- What pairs, returned values and syntactic dependencies order, and the atomicity of LR and SC.
20_memory.md R83, R88 to R93, R95, with the pairing of R59 and the dependencies of R74 to R76. -/
def Obligations.PairsDependenciesAndAtomicity : Prop :=
  ∀ (E : Execution) (gmo : Event → Event → Prop), E.LegalWith gmo →
    (∀ a b, E.ops a → E.ops b → po a b → a.region = .main → b.region = .main →
      (a.fromAMOorSC = true → b.isLoad = true → (∃ x, b.has x ∧ E.rf gmo (.op a) b x) → gmo (.op a) (.op b)) ∧
      (PairedLrSc E a b → gmo (.op a) (.op b)) ∧
      (AddressDependent E a b → gmo (.op a) (.op b)) ∧
      (DataDependent E a b → gmo (.op a) (.op b)) ∧
      (b.isStore = true → ControlDependent E a b → gmo (.op a) (.op b)) ∧
      (b.isLoad = true →
        (∃ m x, E.ops m ∧ m.isStore = true ∧ po a m ∧ po m b ∧ (AddressDependent E a m ∨ DataDependent E a m) ∧ b.has x ∧
          E.rf gmo (.op m) b x) → gmo (.op a) (.op b)) ∧
      (b.isStore = true → (∃ m, E.ops m ∧ po a m ∧ po m b ∧ AddressDependent E a m) → gmo (.op a) (.op b))) ∧
    (∀ r w x e, E.ops r → E.ops w → PairedLrSc E r w → r.addr % r.len = 0 → w.addr % w.len = 0 → r.has x → E.rf gmo e r x →
      gmo e (.op w) ∧
      ∀ t, E.ops t → t.isStore = true → t.has x → t.hart ≠ r.hart → ¬(gmo e (.op t) ∧ gmo (.op t) (.op w)))

/-- The rows of the listings: sources, destinations, accumulating flags, what each carries, per instruction.
The "Source row" and "Dependency units" lines of 40_rv32i.md R200 to R246, 41_rv64i.md R250 to R264, 42_m.md R270 to R282,
43_a.md R290 to R311, 44_f.md R320 to R349, 45_d.md R360 to R391; 20_memory.md R68 to R72, R77, R79; 10_state.md R25, R27 to R31. -/
def Obligations.ListingRows : Prop :=
  ∀ (ok : Bool) (rd rs1 rs2 rs3 : Reg) (rm : BitVec 3) (imm : BitVec 12) (imm20 : BitVec 20) (sh5 : BitVec 5)
    (sh6 : BitVec 6) (off13 : BitVec 13) (off21 : BitVec 21) (csr : BitVec 12) (z : BitVec 5) (fm pred succ : BitVec 4)
    (aq rl : Bool),
    (∀ i ∈ [Instr.lui rd imm20, .auipc rd imm20, .jal rd off21], ListedAs ok i (computes ∅ (xu rd) ∅)) ∧
    ListedAs ok (.jalr rd rs1 imm) { other := xu rs1, dests := xu rd, control := True } ∧
    (∀ i ∈ [Instr.beq rs1 rs2 off13, .bne rs1 rs2 off13, .blt rs1 rs2 off13, .bge rs1 rs2 off13, .bltu rs1 rs2 off13,
        .bgeu rs1 rs2 off13], ListedAs ok i { other := xu rs1 ∪ xu rs2, control := True }) ∧
    (∀ i ∈ [Instr.lb rd rs1 imm, .lh rd rs1 imm, .lw rd rs1 imm, .lbu rd rs1 imm, .lhu rd rs1 imm, .lwu rd rs1 imm,
        .ld rd rs1 imm], ListedAs ok i { addr := xu rs1, dests := xu rd, memory := True }) ∧
    (∀ i ∈ [Instr.flw rd rs1 imm, .fld rd rs1 imm], ListedAs ok i { addr := xu rs1, dests := fu rd, memory := True }) ∧
    (∀ i ∈ [Instr.sb rs2 rs1 imm, .sh rs2 rs1 imm, .sw rs2 rs1 imm, .sd rs2 rs1 imm],
      ListedAs ok i { addr := xu rs1, data := xu rs2, memory := True }) ∧
    (∀ i ∈ [Instr.fsw rs2 rs1 imm, .fsd rs2 rs1 imm], ListedAs ok i { addr := xu rs1, data := fu rs2, memory := True }) ∧
    (∀ i ∈ [Instr.addi rd rs1 imm, .slti rd rs1 imm, .sltiu rd rs1 imm, .xori rd rs1 imm, .ori rd rs1 imm,
        .andi rd rs1 imm, .slli32 rd rs1 sh5, .srli32 rd rs1 sh5, .srai32 rd rs1 sh5, .slli rd rs1 sh6, .srli rd rs1 sh6,
        .srai rd rs1 sh6, .addiw rd rs1 imm, .slliw rd rs1 sh5, .srliw rd rs1 sh5, .sraiw rd rs1 sh5],
      ListedAs ok i (computes (xu rs1) (xu rd) ∅)) ∧
    (∀ i ∈ [Instr.add rd rs1 rs2, .sub rd rs1 rs2, .sll rd rs1 rs2, .slt rd rs1 rs2, .sltu rd rs1 rs2, .xor rd rs1 rs2,
        .srl rd rs1 rs2, .sra rd rs1 rs2, .or rd rs1 rs2, .and rd rs1 rs2, .addw rd rs1 rs2, .subw rd rs1 rs2,
        .sllw rd rs1 rs2, .srlw rd rs1 rs2, .sraw rd rs1 rs2, .mul rd rs1 rs2, .mulh rd rs1 rs2, .mulhsu rd rs1 rs2,
        .mulhu rd rs1 rs2, .div rd rs1 rs2, .divu rd rs1 rs2, .rem rd rs1 rs2, .remu rd rs1 rs2, .mulw rd rs1 rs2,
        .divw rd rs1 rs2, .divuw rd rs1 rs2, .remw rd rs1 rs2, .remuw rd rs1 rs2],
      ListedAs ok i (computes (xu rs1 ∪ xu rs2) (xu rd) ∅)) ∧
    (∀ i ∈ [Instr.fence fm pred succ rs1 rd, .fenceI imm rs1 rd, .ecall, .ebreak], ListedAs ok i (computes ∅ ∅ ∅)) ∧
    ListedAs ok (.csrrw rd csr rs1) (csrRow rd (xu rs1) (csru csr) (rd ≠ 0) True) ∧
    ListedAs ok (.csrrs rd csr rs1) (csrRow rd (xu rs1) (csru csr) True (rs1 ≠ 0)) ∧
    ListedAs ok (.csrrc rd csr rs1) (csrRow rd (xu rs1) (csru csr) True (rs1 ≠ 0)) ∧
    ListedAs ok (.csrrwi rd csr z) (csrRow rd ∅ (csru csr) (rd ≠ 0) True) ∧
    ListedAs ok (.csrrsi rd csr z) (csrRow rd ∅ (csru csr) True (z ≠ 0)) ∧
    ListedAs ok (.csrrci rd csr z) (csrRow rd ∅ (csru csr) True (z ≠ 0)) ∧
    (∀ i ∈ [Instr.lrW rd rs1 aq rl, .lrD rd rs1 aq rl],
      ListedAs ok i { addr := xu rs1, dests := xu rd, memory := True, role := .lr }) ∧
    (∀ i ∈ [Instr.scW rd rs2 rs1 aq rl, .scD rd rs2 rs1 aq rl],
      ListedAs true i { addr := xu rs1, data := xu rs2, dests := xu rd, memory := True, role := .sc } ∧
      ListedAs false i { addr := xu rs1, data := xu rs2, role := .sc }) ∧
    (∀ i ∈ [Instr.amoswapW rd rs2 rs1 aq rl, .amoaddW rd rs2 rs1 aq rl, .amoxorW rd rs2 rs1 aq rl,
        .amoandW rd rs2 rs1 aq rl, .amoorW rd rs2 rs1 aq rl, .amominW rd rs2 rs1 aq rl, .amomaxW rd rs2 rs1 aq rl,
        .amominuW rd rs2 rs1 aq rl, .amomaxuW rd rs2 rs1 aq rl, .amoswapD rd rs2 rs1 aq rl, .amoaddD rd rs2 rs1 aq rl,
        .amoxorD rd rs2 rs1 aq rl, .amoandD rd rs2 rs1 aq rl, .amoorD rd rs2 rs1 aq rl, .amominD rd rs2 rs1 aq rl,
        .amomaxD rd rs2 rs1 aq rl, .amominuD rd rs2 rs1 aq rl, .amomaxuD rd rs2 rs1 aq rl],
      ListedAs ok i { addr := xu rs1, data := xu rs2, dests := xu rd, memory := True }) ∧
    (∀ i ∈ [Instr.fmaddS rd rs1 rs2 rs3 rm, .fmsubS rd rs1 rs2 rs3 rm, .fnmsubS rd rs1 rs2 rs3 rm,
        .fnmaddS rd rs1 rs2 rs3 rm, .fmaddD rd rs1 rs2 rs3 rm, .fmsubD rd rs1 rs2 rs3 rm, .fnmsubD rd rs1 rs2 rs3 rm,
        .fnmaddD rd rs1 rs2 rs3 rm],
      ListedAs ok i (computes (fu rs1 ∪ fu rs2 ∪ fu rs3 ∪ frmIf rm) (fu rd) (flagsOf (cellOf true false true true true)))) ∧
    (∀ i ∈ [Instr.faddS rd rs1 rs2 rm, .fsubS rd rs1 rs2 rm, .faddD rd rs1 rs2 rm, .fsubD rd rs1 rs2 rm],
      ListedAs ok i (computes (fu rs1 ∪ fu rs2 ∪ frmIf rm) (fu rd) (flagsOf (cellOf true false true false true)))) ∧
    (∀ i ∈ [Instr.fmulS rd rs1 rs2 rm, .fmulD rd rs1 rs2 rm],
      ListedAs ok i (computes (fu rs1 ∪ fu rs2 ∪ frmIf rm) (fu rd) (flagsOf (cellOf true false true true true)))) ∧
    (∀ i ∈ [Instr.fdivS rd rs1 rs2 rm, .fdivD rd rs1 rs2 rm],
      ListedAs ok i (computes (fu rs1 ∪ fu rs2 ∪ frmIf rm) (fu rd) (flagsOf (cellOf true true true true true)))) ∧
    (∀ i ∈ [Instr.fsqrtS rd rs1 rm, .fsqrtD rd rs1 rm],
      ListedAs ok i (computes (fu rs1 ∪ frmIf rm) (fu rd) (flagsOf (cellOf true false false false true)))) ∧
    (∀ i ∈ [Instr.fcvtWS rd rs1 rm, .fcvtWUS rd rs1 rm, .fcvtLS rd rs1 rm, .fcvtLUS rd rs1 rm, .fcvtWD rd rs1 rm,
        .fcvtWUD rd rs1 rm, .fcvtLD rd rs1 rm, .fcvtLUD rd rs1 rm],
      ListedAs ok i (computes (fu rs1 ∪ frmIf rm) (xu rd) (flagsOf (cellOf true false false false true)))) ∧
    (∀ i ∈ [Instr.fsgnjS rd rs1 rs2, .fsgnjnS rd rs1 rs2, .fsgnjxS rd rs1 rs2, .fsgnjD rd rs1 rs2, .fsgnjnD rd rs1 rs2,
        .fsgnjxD rd rs1 rs2], ListedAs ok i (computes (fu rs1 ∪ fu rs2) (fu rd) ∅)) ∧
    (∀ i ∈ [Instr.fminS rd rs1 rs2, .fmaxS rd rs1 rs2, .fminD rd rs1 rs2, .fmaxD rd rs1 rs2],
      ListedAs ok i (computes (fu rs1 ∪ fu rs2) (fu rd) (flagsOf (cellOf true false false false false)))) ∧
    (∀ i ∈ [Instr.feqS rd rs1 rs2, .fltS rd rs1 rs2, .fleS rd rs1 rs2, .feqD rd rs1 rs2, .fltD rd rs1 rs2,
        .fleD rd rs1 rs2],
      ListedAs ok i (computes (fu rs1 ∪ fu rs2) (xu rd) (flagsOf (cellOf true false false false false)))) ∧
    (∀ i ∈ [Instr.fmvXW rd rs1, .fmvXD rd rs1, .fclassS rd rs1, .fclassD rd rs1],
      ListedAs ok i (computes (fu rs1) (xu rd) ∅)) ∧
    (∀ i ∈ [Instr.fmvWX rd rs1, .fmvDX rd rs1, .fcvtDW rd rs1 rm, .fcvtDWU rd rs1 rm],
      ListedAs ok i (computes (xu rs1) (fu rd) ∅)) ∧
    (∀ i ∈ [Instr.fcvtSW rd rs1 rm, .fcvtSWU rd rs1 rm, .fcvtSL rd rs1 rm, .fcvtSLU rd rs1 rm, .fcvtDL rd rs1 rm,
        .fcvtDLU rd rs1 rm],
      ListedAs ok i (computes (xu rs1 ∪ frmIf rm) (fu rd) (flagsOf (cellOf false false false false true)))) ∧
    ListedAs ok (.fcvtSD rd rs1 rm)
      (computes (fu rs1 ∪ frmIf rm) (fu rd) (flagsOf (cellOf true false true true true))) ∧
    ListedAs ok (.fcvtDS rd rs1 rm) (computes (fu rs1) (fu rd) (flagsOf (cellOf true false false false false)))

/-- The dependency walk computes the syntactic dependencies.
20_memory.md R78, with the relation of R73. The rows of the listings are stated by `ListingRows`. -/
def Obligations.WalkComputesDependencies : Prop :=
  ∀ (E : Execution) (h : Nat) (l : List Instance), (∀ p, E.inst h p = streamAt l p) →
    ∀ (j : Nat) (n : Instance), streamAt l j = some n →
      (∀ (r : DepUnit) (i : Nat), r ∈ n.listing.sources →
        (i ∈ (depsBefore l j).of r ↔
          E.depends h i j r ∧ ∃ m, streamAt l i = some m ∧ m.listing.memory = true)) ∧
      (∀ i, i ∈ (depsBefore l j).ctrl ↔
        (∃ m, streamAt l i = some m ∧ m.listing.memory = true) ∧
        ∃ k c r, i < k ∧ k < j ∧ streamAt l k = some c ∧ c.listing.control = true ∧ E.depends h i k r)

/-- The order check decides whether a finite run is admitted.
20_memory.md R97, R98. The check is the model's own (`admittedB`, log 21); `Recorded` is kept by every step (`StepKeepsRecorded`). -/
def Obligations.CheckerDecidesAdmission : Prop :=
  ∀ (s : State), Recorded s → (s.admittedB = true ↔ s.Admitted)

/-- A run is judged on its whole history, bounded or not, and every run of one hart is admitted.
20_memory.md R96 to R98, R114; 92_eei_decisions.md D22. The model's loads with one hart (log 6) are sound; how the execution of a
run is put together is the model's (log 26). -/
def Obligations.SingleHartRunsAreAdmitted : Prop :=
  (∀ (r : Nat → State), IsRun r → ((r 0).harts.map Hart.id).Nodup →
    (∀ n h p i, (r n).execution.inst h p = some i → (runExecution r).inst h p = some i) ∧
    (∀ n, (r n).allEnded = true → (RunAdmitted r ↔ (r n).Admitted))) ∧
  (∀ (s t : State), FreshOneHart s → Reaches s t → t.Admitted) ∧
  (∀ (r : Nat → State), IsRun r → FreshOneHart (r 0) → RunAdmitted r)

/-- Every step keeps position, dependency sets and pairing state those of the stream.
20_memory.md R59, R66, R78. -/
def Obligations.StepKeepsBookkeeping : Prop :=
  ∀ (s t : State), (∀ h ∈ s.harts, Bookkept h) → step s = .next t → ∀ h ∈ t.harts, Bookkept h

/-- Every step keeps memory canonical and fetched text unwritten.
20_memory.md R108; the canonical forms are the model's (log 6). -/
def Obligations.StepKeepsMemorySound : Prop :=
  ∀ (s t : State), MemorySound s → step s = .next t → MemorySound t

/-- Every step keeps every pc a multiple of 2, and of 4 without compressed instructions.
10_state.md R23, 30_encoding.md R133, 90_conflicts.md C7. -/
def Obligations.StepKeepsPcAligned : Prop :=
  ∀ (s t : State), PcAligned s → step s = .next t → PcAligned t

/-- Every step adds only sound records, of the hart that steps, and memory changes only where they store.
10_state.md R37; 20_memory.md R53, R62, R104. -/
def Obligations.StepKeepsHistorySound : Prop :=
  ∀ (s t : State), HistorySound s → step s = .next t → HistorySound t ∧
    ∃ ops, t.history = ops ++ s.history ∧ (∀ o ∈ ops, o.hart = s.hart.id ∧ o.inst = s.hart.pos) ∧
      ∀ x, t.byteAt x ≠ s.byteAt x → ∃ o ∈ ops, o.isStore = true ∧ o.has x

/-- Every step keeps the history recorded as the order check needs it.
20_memory.md R58, R66; 10_state.md R20, R37. -/
def Obligations.StepKeepsRecorded : Prop :=
  ∀ (s t : State), (s.harts.map Hart.id).Nodup → (∀ h ∈ s.harts, h.pos = h.stream.length) → Recorded s → step s = .next t →
    (t.harts.map Hart.id).Nodup ∧ (∀ h ∈ t.harts, h.pos = h.stream.length) ∧ Recorded t

/-- The state after reset, and the start of a run of any number of harts, meet every invariant.
10_state.md R20, R36; 60_exceptions.md R409; 70_reset_and_hazards.md R431, R432. That reset has one hart, with an empty program at 0,
and its parameters are the model's choices (log 2, log 3). -/
def Obligations.ResetMeetsTheInvariants : Prop :=
  (∀ (p : Params) (first : Program) (rest : List Program) (d : Draws) (s : State), s = State.start p first rest d →
    s.harts.map Hart.id = List.range (rest.length + 1) ∧
    s.harts.map (fun h => h.pc) = (first :: rest).map (fun q => BitVec.ofNat 64 q.entry) ∧
    (∀ h ∈ s.harts, h.ended = false ∧ h.stream = [] ∧ Bookkept h) ∧
    s.history = [] ∧ MemorySound s ∧ HistorySound s ∧ Recorded s ∧
    ((∀ q ∈ first :: rest, q.entry % 4 = 0) → PcAligned s) ∧ (rest = [] → FreshOneHart s)) ∧
  State.reset = State.start Params.reset { entry := 0, words := [] } [] { bytes := [], scs := [], splits := [], count := 0 } ∧
  (∀ h ∈ State.reset.harts, Bookkept h) ∧ MemorySound State.reset ∧ PcAligned State.reset ∧ HistorySound State.reset ∧
  Recorded State.reset ∧ (State.reset.harts.map Hart.id).Nodup ∧ FreshOneHart State.reset
end

