-- ==== Sys2Proof/Laws/Decode.lean ====
section
/-! SUPPORT. The fields of a word and the packed fields: what the encoder packs, the decoder reads back. -/

namespace Sys2Proof

/-- The number of an append: the high part times 2^n, plus the low part. -/
theorem append_toNat {m n : Nat} (x : BitVec m) (y : BitVec n) : (x ++ y).toNat = x.toNat * 2 ^ n + y.toNat := by
  rw [BitVec.toNat_append, Nat.shiftLeft_eq, Nat.mul_comm, ← Nat.two_pow_add_eq_or_of_lt y.isLt]

theorem extract_toNat {w : Nat} (s n : Nat) (x : BitVec w) : (x.extractLsb' s n).toNat = x.toNat / 2 ^ s % 2 ^ n := by
  rw [BitVec.extractLsb'_toNat, Nat.shiftRight_eq_div_pow]

theorem extract_append_high {m n : Nat} (x : BitVec m) (y : BitVec n) : (x ++ y).extractLsb' n m = x := by
  apply BitVec.eq_of_toNat_eq
  rw [extract_toNat, append_toNat, Nat.mul_comm, Nat.mul_add_div (Nat.two_pow_pos n), Nat.div_eq_of_lt y.isLt,
    Nat.add_zero, Nat.mod_eq_of_lt x.isLt]

theorem extract_append_low {m n : Nat} (x : BitVec m) (y : BitVec n) : (x ++ y).extractLsb' 0 n = y := by
  apply BitVec.eq_of_toNat_eq
  rw [extract_toNat, append_toNat, pow_zero, Nat.div_one, Nat.mul_comm, Nat.mul_add_mod, Nat.mod_eq_of_lt y.isLt]

/-- The fields of a word make the word. -/
theorem joinWord_splitWord (w : BitVec 32) : joinWord (splitWord w) = w := by
  apply BitVec.eq_of_toNat_eq
  have := w.isLt
  simp only [joinWord, splitWord, append_toNat, extract_toNat]
  omega

/-- The word of some fields has those fields. -/
theorem splitWord_joinWord (f : Fields) : splitWord (joinWord f) = f := by
  obtain ⟨a, b, c, d, e, g⟩ := f
  have := a.isLt
  have := b.isLt
  have := c.isLt
  have := d.isLt
  have := e.isLt
  have := g.isLt
  simp only [splitWord, joinWord, Fields.mk.injEq]
  refine ⟨?_, ?_, ?_, ?_, ?_, ?_⟩ <;>
  · apply BitVec.eq_of_toNat_eq
    simp only [extract_toNat, append_toNat]
    omega

/-- I immediate. -/
theorem immI_pack (v : BitVec 12) : v.extractLsb' 5 7 ++ v.extractLsb' 0 5 = v := by
  apply BitVec.eq_of_toNat_eq
  have := v.isLt
  simp only [extract_toNat, append_toNat]
  omega

/-- U immediate. -/
theorem immU_pack (v : BitVec 20) :
    v.extractLsb' 13 7 ++ v.extractLsb' 8 5 ++ v.extractLsb' 3 5 ++ v.extractLsb' 0 3 = v := by
  apply BitVec.eq_of_toNat_eq
  have := v.isLt
  simp only [extract_toNat, append_toNat]
  omega

/-- An even number has bit 0 clear. -/
theorem even_of_not_bit0 {n : Nat} (v : BitVec n) (h : (!v.getLsbD 0) = true) : v.toNat % 2 = 0 := by
  simp [BitVec.getLsbD, Nat.testBit_zero] at h
  omega

/-- B immediate of an even offset. -/
theorem immB_pack (v : BitVec 13) (h : (!v.getLsbD 0) = true) :
    (v.extractLsb' 12 1 ++ v.extractLsb' 5 6 : BitVec 7).extractLsb' 6 1 ++
      (v.extractLsb' 1 4 ++ v.extractLsb' 11 1 : BitVec 5).extractLsb' 0 1 ++
      (v.extractLsb' 12 1 ++ v.extractLsb' 5 6 : BitVec 7).extractLsb' 0 6 ++
      (v.extractLsb' 1 4 ++ v.extractLsb' 11 1 : BitVec 5).extractLsb' 1 4 ++ (0 : BitVec 1) = v := by
  apply BitVec.eq_of_toNat_eq
  have := v.isLt
  have := even_of_not_bit0 v h
  have h0 : (0 : BitVec 1).toNat = 0 := rfl
  rw [extract_append_high, extract_append_low, extract_append_low, extract_append_high]
  simp only [extract_toNat, append_toNat, h0]
  omega

/-- J immediate of an even offset. -/
theorem immJ_pack (v : BitVec 21) (h : (!v.getLsbD 0) = true) :
    (v.extractLsb' 20 1 ++ v.extractLsb' 5 6 : BitVec 7).extractLsb' 6 1 ++ v.extractLsb' 15 5 ++ v.extractLsb' 12 3 ++
      (v.extractLsb' 1 4 ++ v.extractLsb' 11 1 : BitVec 5).extractLsb' 0 1 ++
      (v.extractLsb' 20 1 ++ v.extractLsb' 5 6 : BitVec 7).extractLsb' 0 6 ++
      (v.extractLsb' 1 4 ++ v.extractLsb' 11 1 : BitVec 5).extractLsb' 1 4 ++ (0 : BitVec 1) = v := by
  apply BitVec.eq_of_toNat_eq
  have := v.isLt
  have := even_of_not_bit0 v h
  have h0 : (0 : BitVec 1).toNat = 0 := rfl
  rw [extract_append_high, extract_append_low, extract_append_low, extract_append_high]
  simp only [extract_toNat, append_toNat, h0]
  omega

/-- A 6-bit shift amount below a 6-bit code. -/
theorem shamt6_pack (c v : BitVec 6) :
    (c ++ v.extractLsb' 5 1 : BitVec 7).extractLsb' 0 1 ++ v.extractLsb' 0 5 = v ∧
    (c ++ v.extractLsb' 5 1 : BitVec 7).extractLsb' 1 6 = c := by
  have := v.isLt
  have := c.isLt
  constructor <;>
  · apply BitVec.eq_of_toNat_eq
    simp only [extract_toNat, append_toNat]
    omega

/-- funct5, aq and rl. -/
theorem amo_pack (c : BitVec 5) (aq rl : Bool) :
    (c ++ BitVec.ofBool aq ++ BitVec.ofBool rl : BitVec 7).extractLsb' 2 5 = c ∧
    (c ++ BitVec.ofBool aq ++ BitVec.ofBool rl : BitVec 7).getLsbD 1 = aq ∧
    (c ++ BitVec.ofBool aq ++ BitVec.ofBool rl : BitVec 7).getLsbD 0 = rl := by
  have := c.isLt
  refine ⟨?_, ?_, ?_⟩
  · apply BitVec.eq_of_toNat_eq
    simp only [extract_toNat, append_toNat]
    cases aq <;> cases rl <;> simp <;> omega
  · rw [BitVec.getLsbD, Nat.testBit_eq_decide_div_mod_eq, append_toNat, append_toNat]
    cases aq <;> cases rl <;> simp <;> omega
  · rw [BitVec.getLsbD, Nat.testBit_eq_decide_div_mod_eq, append_toNat, append_toNat]
    cases aq <;> cases rl <;> simp

/-- rs3 and fmt. -/
theorem r4_pack (c : BitVec 5) (m : BitVec 2) :
    (c ++ m : BitVec 7).extractLsb' 2 5 = c ∧ (c ++ m : BitVec 7).extractLsb' 0 2 = m := by
  have := c.isLt
  have := m.isLt
  constructor <;>
  · apply BitVec.eq_of_toNat_eq
    simp only [extract_toNat, append_toNat]
    omega

/-- fm, pred and succ of FENCE. -/
theorem fence_pack (fm p q : BitVec 4) :
    (fm ++ p.extractLsb' 1 3 : BitVec 7).extractLsb' 3 4 = fm ∧
    (fm ++ p.extractLsb' 1 3 : BitVec 7).extractLsb' 0 3 ++ (p.extractLsb' 0 1 ++ q : BitVec 5).extractLsb' 4 1 = p ∧
    (p.extractLsb' 0 1 ++ q : BitVec 5).extractLsb' 0 4 = q := by
  have := fm.isLt
  have := p.isLt
  have := q.isLt
  refine ⟨?_, ?_, ?_⟩ <;>
  · apply BitVec.eq_of_toNat_eq
    simp only [extract_toNat, append_toNat]
    omega

end Sys2Proof
end

