-- ==== Sys2Proof/Laws/State.lean ====
section
/-! SUPPORT. What each update of the state leaves as it was: one lemma per field and update. -/

namespace Sys2Proof.Machine

variable (s : State)

@[simp] theorem State.writeX_params (r : Reg) (v : Word) : (s.writeX r v).params = s.params := by unfold State.writeX; split <;> rfl
@[simp] theorem State.writeX_mem (r : Reg) (v : Word) : (s.writeX r v).mem = s.mem := by unfold State.writeX; split <;> rfl
@[simp] theorem State.writeX_history (r : Reg) (v : Word) : (s.writeX r v).history = s.history := by unfold State.writeX; split <;> rfl
@[simp] theorem State.writeX_fetched (r : Reg) (v : Word) : (s.writeX r v).fetched = s.fetched := by unfold State.writeX; split <;> rfl
@[simp] theorem State.writeX_others (r : Reg) (v : Word) : (s.writeX r v).others = s.others := by unfold State.writeX; split <;> rfl
@[simp] theorem State.writeX_draws (r : Reg) (v : Word) : (s.writeX r v).draws = s.draws := by unfold State.writeX; split <;> rfl
@[simp] theorem State.writeX_hart_id (r : Reg) (v : Word) : (s.writeX r v).hart.id = s.hart.id := by unfold State.writeX; split <;> rfl
@[simp] theorem State.writeX_hart_pc (r : Reg) (v : Word) : (s.writeX r v).hart.pc = s.hart.pc := by unfold State.writeX; split <;> rfl
@[simp] theorem State.writeX_hart_f (r : Reg) (v : Word) : (s.writeX r v).hart.f = s.hart.f := by unfold State.writeX; split <;> rfl
@[simp] theorem State.writeX_hart_frm (r : Reg) (v : Word) : (s.writeX r v).hart.frm = s.hart.frm := by unfold State.writeX; split <;> rfl
@[simp] theorem State.writeX_hart_fflags (r : Reg) (v : Word) : (s.writeX r v).hart.fflags = s.hart.fflags := by unfold State.writeX; split <;> rfl
@[simp] theorem State.writeX_hart_entry (r : Reg) (v : Word) : (s.writeX r v).hart.entry = s.hart.entry := by unfold State.writeX; split <;> rfl
@[simp] theorem State.writeX_hart_len (r : Reg) (v : Word) : (s.writeX r v).hart.len = s.hart.len := by unfold State.writeX; split <;> rfl
@[simp] theorem State.writeX_hart_ended (r : Reg) (v : Word) : (s.writeX r v).hart.ended = s.hart.ended := by unfold State.writeX; split <;> rfl
@[simp] theorem State.writeX_hart_pos (r : Reg) (v : Word) : (s.writeX r v).hart.pos = s.hart.pos := by unfold State.writeX; split <;> rfl
@[simp] theorem State.writeX_hart_stream (r : Reg) (v : Word) : (s.writeX r v).hart.stream = s.hart.stream := by unfold State.writeX; split <;> rfl
@[simp] theorem State.writeX_hart_lr (r : Reg) (v : Word) : (s.writeX r v).hart.lr = s.hart.lr := by unfold State.writeX; split <;> rfl
@[simp] theorem State.writeX_hart_deps (r : Reg) (v : Word) : (s.writeX r v).hart.deps = s.hart.deps := by unfold State.writeX; split <;> rfl
@[simp] theorem State.writeX_hart_ctrl (r : Reg) (v : Word) : (s.writeX r v).hart.ctrl = s.hart.ctrl := by unfold State.writeX; split <;> rfl
@[simp] theorem State.writeX_xlen (r : Reg) (v : Word) : (s.writeX r v).xlen = s.xlen := by simp [State.xlen]
@[simp] theorem State.writeX_wideF (r : Reg) (v : Word) : (s.writeX r v).wideF = s.wideF := by simp [State.wideF]
@[simp] theorem State.writeX_pc (r : Reg) (v : Word) : (s.writeX r v).pc = s.pc := by simp [State.pc]
@[simp] theorem State.writeX_nextPc (r : Reg) (v : Word) : (s.writeX r v).nextPc = s.nextPc := by simp [State.nextPc]
@[simp] theorem State.writeX_readF (r : Reg) (v : Word) (q : Reg) : (s.writeX r v).readF q = s.readF q := by simp [State.readF, State.truncF]
@[simp] theorem State.writeX_byteAt (r : Reg) (v : Word) (q : Nat) : (s.writeX r v).byteAt q = s.byteAt q := by simp [State.byteAt]
@[simp] theorem State.writeX_readCsr (r : Reg) (v : Word) (q : BitVec 12) : (s.writeX r v).readCsr q = s.readCsr q := by simp [State.readCsr]

@[simp] theorem State.writeF_params (r : Reg) (v : Word) : (s.writeF r v).params = s.params := rfl
@[simp] theorem State.writeF_mem (r : Reg) (v : Word) : (s.writeF r v).mem = s.mem := rfl
@[simp] theorem State.writeF_history (r : Reg) (v : Word) : (s.writeF r v).history = s.history := rfl
@[simp] theorem State.writeF_fetched (r : Reg) (v : Word) : (s.writeF r v).fetched = s.fetched := rfl
@[simp] theorem State.writeF_others (r : Reg) (v : Word) : (s.writeF r v).others = s.others := rfl
@[simp] theorem State.writeF_draws (r : Reg) (v : Word) : (s.writeF r v).draws = s.draws := rfl
@[simp] theorem State.writeF_hart_id (r : Reg) (v : Word) : (s.writeF r v).hart.id = s.hart.id := rfl
@[simp] theorem State.writeF_hart_pc (r : Reg) (v : Word) : (s.writeF r v).hart.pc = s.hart.pc := rfl
@[simp] theorem State.writeF_hart_x (r : Reg) (v : Word) : (s.writeF r v).hart.x = s.hart.x := rfl
@[simp] theorem State.writeF_hart_frm (r : Reg) (v : Word) : (s.writeF r v).hart.frm = s.hart.frm := rfl
@[simp] theorem State.writeF_hart_fflags (r : Reg) (v : Word) : (s.writeF r v).hart.fflags = s.hart.fflags := rfl
@[simp] theorem State.writeF_hart_entry (r : Reg) (v : Word) : (s.writeF r v).hart.entry = s.hart.entry := rfl
@[simp] theorem State.writeF_hart_len (r : Reg) (v : Word) : (s.writeF r v).hart.len = s.hart.len := rfl
@[simp] theorem State.writeF_hart_ended (r : Reg) (v : Word) : (s.writeF r v).hart.ended = s.hart.ended := rfl
@[simp] theorem State.writeF_hart_pos (r : Reg) (v : Word) : (s.writeF r v).hart.pos = s.hart.pos := rfl
@[simp] theorem State.writeF_hart_stream (r : Reg) (v : Word) : (s.writeF r v).hart.stream = s.hart.stream := rfl
@[simp] theorem State.writeF_hart_lr (r : Reg) (v : Word) : (s.writeF r v).hart.lr = s.hart.lr := rfl
@[simp] theorem State.writeF_hart_deps (r : Reg) (v : Word) : (s.writeF r v).hart.deps = s.hart.deps := rfl
@[simp] theorem State.writeF_hart_ctrl (r : Reg) (v : Word) : (s.writeF r v).hart.ctrl = s.hart.ctrl := rfl
@[simp] theorem State.writeF_xlen (r : Reg) (v : Word) : (s.writeF r v).xlen = s.xlen := by simp [State.xlen]
@[simp] theorem State.writeF_wideF (r : Reg) (v : Word) : (s.writeF r v).wideF = s.wideF := by simp [State.wideF]
@[simp] theorem State.writeF_pc (r : Reg) (v : Word) : (s.writeF r v).pc = s.pc := by simp [State.pc]
@[simp] theorem State.writeF_nextPc (r : Reg) (v : Word) : (s.writeF r v).nextPc = s.nextPc := by simp [State.nextPc]
@[simp] theorem State.writeF_readX (r : Reg) (v : Word) (q : Reg) : (s.writeF r v).readX q = s.readX q := by simp [State.readX]
@[simp] theorem State.writeF_byteAt (r : Reg) (v : Word) (q : Nat) : (s.writeF r v).byteAt q = s.byteAt q := by simp [State.byteAt]
@[simp] theorem State.writeF_readCsr (r : Reg) (v : Word) (q : BitVec 12) : (s.writeF r v).readCsr q = s.readCsr q := by simp [State.readCsr]

@[simp] theorem State.writeCsr_params (a : BitVec 12) (v : Word) : (s.writeCsr a v).params = s.params := by unfold State.writeCsr; split_ifs <;> rfl
@[simp] theorem State.writeCsr_mem (a : BitVec 12) (v : Word) : (s.writeCsr a v).mem = s.mem := by unfold State.writeCsr; split_ifs <;> rfl
@[simp] theorem State.writeCsr_history (a : BitVec 12) (v : Word) : (s.writeCsr a v).history = s.history := by unfold State.writeCsr; split_ifs <;> rfl
@[simp] theorem State.writeCsr_fetched (a : BitVec 12) (v : Word) : (s.writeCsr a v).fetched = s.fetched := by unfold State.writeCsr; split_ifs <;> rfl
@[simp] theorem State.writeCsr_others (a : BitVec 12) (v : Word) : (s.writeCsr a v).others = s.others := by unfold State.writeCsr; split_ifs <;> rfl
@[simp] theorem State.writeCsr_draws (a : BitVec 12) (v : Word) : (s.writeCsr a v).draws = s.draws := by unfold State.writeCsr; split_ifs <;> rfl
@[simp] theorem State.writeCsr_hart_id (a : BitVec 12) (v : Word) : (s.writeCsr a v).hart.id = s.hart.id := by unfold State.writeCsr; split_ifs <;> rfl
@[simp] theorem State.writeCsr_hart_pc (a : BitVec 12) (v : Word) : (s.writeCsr a v).hart.pc = s.hart.pc := by unfold State.writeCsr; split_ifs <;> rfl
@[simp] theorem State.writeCsr_hart_x (a : BitVec 12) (v : Word) : (s.writeCsr a v).hart.x = s.hart.x := by unfold State.writeCsr; split_ifs <;> rfl
@[simp] theorem State.writeCsr_hart_f (a : BitVec 12) (v : Word) : (s.writeCsr a v).hart.f = s.hart.f := by unfold State.writeCsr; split_ifs <;> rfl
@[simp] theorem State.writeCsr_hart_entry (a : BitVec 12) (v : Word) : (s.writeCsr a v).hart.entry = s.hart.entry := by unfold State.writeCsr; split_ifs <;> rfl
@[simp] theorem State.writeCsr_hart_len (a : BitVec 12) (v : Word) : (s.writeCsr a v).hart.len = s.hart.len := by unfold State.writeCsr; split_ifs <;> rfl
@[simp] theorem State.writeCsr_hart_ended (a : BitVec 12) (v : Word) : (s.writeCsr a v).hart.ended = s.hart.ended := by unfold State.writeCsr; split_ifs <;> rfl
@[simp] theorem State.writeCsr_hart_pos (a : BitVec 12) (v : Word) : (s.writeCsr a v).hart.pos = s.hart.pos := by unfold State.writeCsr; split_ifs <;> rfl
@[simp] theorem State.writeCsr_hart_stream (a : BitVec 12) (v : Word) : (s.writeCsr a v).hart.stream = s.hart.stream := by unfold State.writeCsr; split_ifs <;> rfl
@[simp] theorem State.writeCsr_hart_lr (a : BitVec 12) (v : Word) : (s.writeCsr a v).hart.lr = s.hart.lr := by unfold State.writeCsr; split_ifs <;> rfl
@[simp] theorem State.writeCsr_hart_deps (a : BitVec 12) (v : Word) : (s.writeCsr a v).hart.deps = s.hart.deps := by unfold State.writeCsr; split_ifs <;> rfl
@[simp] theorem State.writeCsr_hart_ctrl (a : BitVec 12) (v : Word) : (s.writeCsr a v).hart.ctrl = s.hart.ctrl := by unfold State.writeCsr; split_ifs <;> rfl
@[simp] theorem State.writeCsr_xlen (a : BitVec 12) (v : Word) : (s.writeCsr a v).xlen = s.xlen := by simp [State.xlen]
@[simp] theorem State.writeCsr_wideF (a : BitVec 12) (v : Word) : (s.writeCsr a v).wideF = s.wideF := by simp [State.wideF]
@[simp] theorem State.writeCsr_pc (a : BitVec 12) (v : Word) : (s.writeCsr a v).pc = s.pc := by simp [State.pc]
@[simp] theorem State.writeCsr_nextPc (a : BitVec 12) (v : Word) : (s.writeCsr a v).nextPc = s.nextPc := by simp [State.nextPc]
@[simp] theorem State.writeCsr_readX (a : BitVec 12) (v : Word) (q : Reg) : (s.writeCsr a v).readX q = s.readX q := by simp [State.readX]
@[simp] theorem State.writeCsr_readF (a : BitVec 12) (v : Word) (q : Reg) : (s.writeCsr a v).readF q = s.readF q := by simp [State.readF, State.truncF]
@[simp] theorem State.writeCsr_byteAt (a : BitVec 12) (v : Word) (q : Nat) : (s.writeCsr a v).byteAt q = s.byteAt q := by simp [State.byteAt]

@[simp] theorem State.writeS_params (r : Reg) (v : Nat) : (s.writeS r v).params = s.params := rfl
@[simp] theorem State.writeS_mem (r : Reg) (v : Nat) : (s.writeS r v).mem = s.mem := rfl
@[simp] theorem State.writeS_history (r : Reg) (v : Nat) : (s.writeS r v).history = s.history := rfl
@[simp] theorem State.writeS_fetched (r : Reg) (v : Nat) : (s.writeS r v).fetched = s.fetched := rfl
@[simp] theorem State.writeS_others (r : Reg) (v : Nat) : (s.writeS r v).others = s.others := rfl
@[simp] theorem State.writeS_draws (r : Reg) (v : Nat) : (s.writeS r v).draws = s.draws := rfl
@[simp] theorem State.writeS_hart_id (r : Reg) (v : Nat) : (s.writeS r v).hart.id = s.hart.id := rfl
@[simp] theorem State.writeS_hart_pc (r : Reg) (v : Nat) : (s.writeS r v).hart.pc = s.hart.pc := rfl
@[simp] theorem State.writeS_hart_x (r : Reg) (v : Nat) : (s.writeS r v).hart.x = s.hart.x := rfl
@[simp] theorem State.writeS_hart_frm (r : Reg) (v : Nat) : (s.writeS r v).hart.frm = s.hart.frm := rfl
@[simp] theorem State.writeS_hart_fflags (r : Reg) (v : Nat) : (s.writeS r v).hart.fflags = s.hart.fflags := rfl
@[simp] theorem State.writeS_hart_entry (r : Reg) (v : Nat) : (s.writeS r v).hart.entry = s.hart.entry := rfl
@[simp] theorem State.writeS_hart_len (r : Reg) (v : Nat) : (s.writeS r v).hart.len = s.hart.len := rfl
@[simp] theorem State.writeS_hart_ended (r : Reg) (v : Nat) : (s.writeS r v).hart.ended = s.hart.ended := rfl
@[simp] theorem State.writeS_hart_pos (r : Reg) (v : Nat) : (s.writeS r v).hart.pos = s.hart.pos := rfl
@[simp] theorem State.writeS_hart_stream (r : Reg) (v : Nat) : (s.writeS r v).hart.stream = s.hart.stream := rfl
@[simp] theorem State.writeS_hart_lr (r : Reg) (v : Nat) : (s.writeS r v).hart.lr = s.hart.lr := rfl
@[simp] theorem State.writeS_hart_deps (r : Reg) (v : Nat) : (s.writeS r v).hart.deps = s.hart.deps := rfl
@[simp] theorem State.writeS_hart_ctrl (r : Reg) (v : Nat) : (s.writeS r v).hart.ctrl = s.hart.ctrl := rfl
@[simp] theorem State.writeS_xlen (r : Reg) (v : Nat) : (s.writeS r v).xlen = s.xlen := by simp [State.xlen]
@[simp] theorem State.writeS_wideF (r : Reg) (v : Nat) : (s.writeS r v).wideF = s.wideF := by simp [State.wideF]
@[simp] theorem State.writeS_pc (r : Reg) (v : Nat) : (s.writeS r v).pc = s.pc := by simp [State.pc]
@[simp] theorem State.writeS_nextPc (r : Reg) (v : Nat) : (s.writeS r v).nextPc = s.nextPc := by simp [State.nextPc]
@[simp] theorem State.writeS_readX (r : Reg) (v : Nat) (q : Reg) : (s.writeS r v).readX q = s.readX q := by simp [State.readX]
@[simp] theorem State.writeS_byteAt (r : Reg) (v : Nat) (q : Nat) : (s.writeS r v).byteAt q = s.byteAt q := by simp [State.byteAt]
@[simp] theorem State.writeS_readCsr (r : Reg) (v : Nat) (q : BitVec 12) : (s.writeS r v).readCsr q = s.readCsr q := by simp [State.readCsr]

@[simp] theorem State.writeD_params (r : Reg) (v : Nat) : (s.writeD r v).params = s.params := rfl
@[simp] theorem State.writeD_mem (r : Reg) (v : Nat) : (s.writeD r v).mem = s.mem := rfl
@[simp] theorem State.writeD_history (r : Reg) (v : Nat) : (s.writeD r v).history = s.history := rfl
@[simp] theorem State.writeD_fetched (r : Reg) (v : Nat) : (s.writeD r v).fetched = s.fetched := rfl
@[simp] theorem State.writeD_others (r : Reg) (v : Nat) : (s.writeD r v).others = s.others := rfl
@[simp] theorem State.writeD_draws (r : Reg) (v : Nat) : (s.writeD r v).draws = s.draws := rfl
@[simp] theorem State.writeD_hart_id (r : Reg) (v : Nat) : (s.writeD r v).hart.id = s.hart.id := rfl
@[simp] theorem State.writeD_hart_pc (r : Reg) (v : Nat) : (s.writeD r v).hart.pc = s.hart.pc := rfl
@[simp] theorem State.writeD_hart_x (r : Reg) (v : Nat) : (s.writeD r v).hart.x = s.hart.x := rfl
@[simp] theorem State.writeD_hart_frm (r : Reg) (v : Nat) : (s.writeD r v).hart.frm = s.hart.frm := rfl
@[simp] theorem State.writeD_hart_fflags (r : Reg) (v : Nat) : (s.writeD r v).hart.fflags = s.hart.fflags := rfl
@[simp] theorem State.writeD_hart_entry (r : Reg) (v : Nat) : (s.writeD r v).hart.entry = s.hart.entry := rfl
@[simp] theorem State.writeD_hart_len (r : Reg) (v : Nat) : (s.writeD r v).hart.len = s.hart.len := rfl
@[simp] theorem State.writeD_hart_ended (r : Reg) (v : Nat) : (s.writeD r v).hart.ended = s.hart.ended := rfl
@[simp] theorem State.writeD_hart_pos (r : Reg) (v : Nat) : (s.writeD r v).hart.pos = s.hart.pos := rfl
@[simp] theorem State.writeD_hart_stream (r : Reg) (v : Nat) : (s.writeD r v).hart.stream = s.hart.stream := rfl
@[simp] theorem State.writeD_hart_lr (r : Reg) (v : Nat) : (s.writeD r v).hart.lr = s.hart.lr := rfl
@[simp] theorem State.writeD_hart_deps (r : Reg) (v : Nat) : (s.writeD r v).hart.deps = s.hart.deps := rfl
@[simp] theorem State.writeD_hart_ctrl (r : Reg) (v : Nat) : (s.writeD r v).hart.ctrl = s.hart.ctrl := rfl
@[simp] theorem State.writeD_xlen (r : Reg) (v : Nat) : (s.writeD r v).xlen = s.xlen := by simp [State.xlen]
@[simp] theorem State.writeD_wideF (r : Reg) (v : Nat) : (s.writeD r v).wideF = s.wideF := by simp [State.wideF]
@[simp] theorem State.writeD_pc (r : Reg) (v : Nat) : (s.writeD r v).pc = s.pc := by simp [State.pc]
@[simp] theorem State.writeD_nextPc (r : Reg) (v : Nat) : (s.writeD r v).nextPc = s.nextPc := by simp [State.nextPc]
@[simp] theorem State.writeD_readX (r : Reg) (v : Nat) (q : Reg) : (s.writeD r v).readX q = s.readX q := by simp [State.readX]
@[simp] theorem State.writeD_byteAt (r : Reg) (v : Nat) (q : Nat) : (s.writeD r v).byteAt q = s.byteAt q := by simp [State.byteAt]
@[simp] theorem State.writeD_readCsr (r : Reg) (v : Nat) (q : BitVec 12) : (s.writeD r v).readCsr q = s.readCsr q := by simp [State.readCsr]

@[simp] theorem State.accrue_params (c v : FlagBits) : (s.accrue c v).params = s.params := rfl
@[simp] theorem State.accrue_mem (c v : FlagBits) : (s.accrue c v).mem = s.mem := rfl
@[simp] theorem State.accrue_history (c v : FlagBits) : (s.accrue c v).history = s.history := rfl
@[simp] theorem State.accrue_fetched (c v : FlagBits) : (s.accrue c v).fetched = s.fetched := rfl
@[simp] theorem State.accrue_others (c v : FlagBits) : (s.accrue c v).others = s.others := rfl
@[simp] theorem State.accrue_draws (c v : FlagBits) : (s.accrue c v).draws = s.draws := rfl
@[simp] theorem State.accrue_hart_id (c v : FlagBits) : (s.accrue c v).hart.id = s.hart.id := rfl
@[simp] theorem State.accrue_hart_pc (c v : FlagBits) : (s.accrue c v).hart.pc = s.hart.pc := rfl
@[simp] theorem State.accrue_hart_x (c v : FlagBits) : (s.accrue c v).hart.x = s.hart.x := rfl
@[simp] theorem State.accrue_hart_f (c v : FlagBits) : (s.accrue c v).hart.f = s.hart.f := rfl
@[simp] theorem State.accrue_hart_frm (c v : FlagBits) : (s.accrue c v).hart.frm = s.hart.frm := rfl
@[simp] theorem State.accrue_hart_entry (c v : FlagBits) : (s.accrue c v).hart.entry = s.hart.entry := rfl
@[simp] theorem State.accrue_hart_len (c v : FlagBits) : (s.accrue c v).hart.len = s.hart.len := rfl
@[simp] theorem State.accrue_hart_ended (c v : FlagBits) : (s.accrue c v).hart.ended = s.hart.ended := rfl
@[simp] theorem State.accrue_hart_pos (c v : FlagBits) : (s.accrue c v).hart.pos = s.hart.pos := rfl
@[simp] theorem State.accrue_hart_stream (c v : FlagBits) : (s.accrue c v).hart.stream = s.hart.stream := rfl
@[simp] theorem State.accrue_hart_lr (c v : FlagBits) : (s.accrue c v).hart.lr = s.hart.lr := rfl
@[simp] theorem State.accrue_hart_deps (c v : FlagBits) : (s.accrue c v).hart.deps = s.hart.deps := rfl
@[simp] theorem State.accrue_hart_ctrl (c v : FlagBits) : (s.accrue c v).hart.ctrl = s.hart.ctrl := rfl
@[simp] theorem State.accrue_xlen (c v : FlagBits) : (s.accrue c v).xlen = s.xlen := by simp [State.xlen]
@[simp] theorem State.accrue_wideF (c v : FlagBits) : (s.accrue c v).wideF = s.wideF := by simp [State.wideF]
@[simp] theorem State.accrue_pc (c v : FlagBits) : (s.accrue c v).pc = s.pc := by simp [State.pc]
@[simp] theorem State.accrue_nextPc (c v : FlagBits) : (s.accrue c v).nextPc = s.nextPc := by simp [State.nextPc]
@[simp] theorem State.accrue_readX (c v : FlagBits) (q : Reg) : (s.accrue c v).readX q = s.readX q := by simp [State.readX]
@[simp] theorem State.accrue_readF (c v : FlagBits) (q : Reg) : (s.accrue c v).readF q = s.readF q := by simp [State.readF, State.truncF]
@[simp] theorem State.accrue_byteAt (c v : FlagBits) (q : Nat) : (s.accrue c v).byteAt q = s.byteAt q := by simp [State.byteAt]

@[simp] theorem State.retireTo_params (i : Instr) (p : Word) : (s.retireTo i p).params = s.params := rfl
@[simp] theorem State.retireTo_mem (i : Instr) (p : Word) : (s.retireTo i p).mem = s.mem := rfl
@[simp] theorem State.retireTo_history (i : Instr) (p : Word) : (s.retireTo i p).history = s.history := rfl
@[simp] theorem State.retireTo_fetched (i : Instr) (p : Word) : (s.retireTo i p).fetched = s.fetched := rfl
@[simp] theorem State.retireTo_others (i : Instr) (p : Word) : (s.retireTo i p).others = s.others := rfl
@[simp] theorem State.retireTo_draws (i : Instr) (p : Word) : (s.retireTo i p).draws = s.draws := rfl
@[simp] theorem State.retireTo_hart_id (i : Instr) (p : Word) : (s.retireTo i p).hart.id = s.hart.id := rfl
@[simp] theorem State.retireTo_hart_x (i : Instr) (p : Word) : (s.retireTo i p).hart.x = s.hart.x := rfl
@[simp] theorem State.retireTo_hart_f (i : Instr) (p : Word) : (s.retireTo i p).hart.f = s.hart.f := rfl
@[simp] theorem State.retireTo_hart_frm (i : Instr) (p : Word) : (s.retireTo i p).hart.frm = s.hart.frm := rfl
@[simp] theorem State.retireTo_hart_fflags (i : Instr) (p : Word) : (s.retireTo i p).hart.fflags = s.hart.fflags := rfl
@[simp] theorem State.retireTo_hart_entry (i : Instr) (p : Word) : (s.retireTo i p).hart.entry = s.hart.entry := rfl
@[simp] theorem State.retireTo_hart_len (i : Instr) (p : Word) : (s.retireTo i p).hart.len = s.hart.len := rfl
@[simp] theorem State.retireTo_hart_ended (i : Instr) (p : Word) : (s.retireTo i p).hart.ended = s.hart.ended := rfl
@[simp] theorem State.retireTo_hart_lr (i : Instr) (p : Word) : (s.retireTo i p).hart.lr = s.hart.lr := rfl
@[simp] theorem State.retireTo_xlen (i : Instr) (p : Word) : (s.retireTo i p).xlen = s.xlen := by simp [State.xlen]
@[simp] theorem State.retireTo_wideF (i : Instr) (p : Word) : (s.retireTo i p).wideF = s.wideF := by simp [State.wideF]
@[simp] theorem State.retireTo_readX (i : Instr) (p : Word) (q : Reg) : (s.retireTo i p).readX q = s.readX q := by simp [State.readX]
@[simp] theorem State.retireTo_readF (i : Instr) (p : Word) (q : Reg) : (s.retireTo i p).readF q = s.readF q := by simp [State.readF, State.truncF]
@[simp] theorem State.retireTo_byteAt (i : Instr) (p : Word) (q : Nat) : (s.retireTo i p).byteAt q = s.byteAt q := by simp [State.byteAt]
@[simp] theorem State.retireTo_readCsr (i : Instr) (p : Word) (q : BitVec 12) : (s.retireTo i p).readCsr q = s.readCsr q := by simp [State.readCsr]

@[simp] theorem State.retire_params (i : Instr) : (s.retire i).params = s.params := rfl
@[simp] theorem State.retire_mem (i : Instr) : (s.retire i).mem = s.mem := rfl
@[simp] theorem State.retire_history (i : Instr) : (s.retire i).history = s.history := rfl
@[simp] theorem State.retire_fetched (i : Instr) : (s.retire i).fetched = s.fetched := rfl
@[simp] theorem State.retire_others (i : Instr) : (s.retire i).others = s.others := rfl
@[simp] theorem State.retire_draws (i : Instr) : (s.retire i).draws = s.draws := rfl
@[simp] theorem State.retire_hart_id (i : Instr) : (s.retire i).hart.id = s.hart.id := rfl
@[simp] theorem State.retire_hart_x (i : Instr) : (s.retire i).hart.x = s.hart.x := rfl
@[simp] theorem State.retire_hart_f (i : Instr) : (s.retire i).hart.f = s.hart.f := rfl
@[simp] theorem State.retire_hart_frm (i : Instr) : (s.retire i).hart.frm = s.hart.frm := rfl
@[simp] theorem State.retire_hart_fflags (i : Instr) : (s.retire i).hart.fflags = s.hart.fflags := rfl
@[simp] theorem State.retire_hart_entry (i : Instr) : (s.retire i).hart.entry = s.hart.entry := rfl
@[simp] theorem State.retire_hart_len (i : Instr) : (s.retire i).hart.len = s.hart.len := rfl
@[simp] theorem State.retire_hart_ended (i : Instr) : (s.retire i).hart.ended = s.hart.ended := rfl
@[simp] theorem State.retire_hart_lr (i : Instr) : (s.retire i).hart.lr = s.hart.lr := rfl
@[simp] theorem State.retire_xlen (i : Instr) : (s.retire i).xlen = s.xlen := by simp [State.xlen]
@[simp] theorem State.retire_wideF (i : Instr) : (s.retire i).wideF = s.wideF := by simp [State.wideF]
@[simp] theorem State.retire_readX (i : Instr) (q : Reg) : (s.retire i).readX q = s.readX q := by simp [State.readX]
@[simp] theorem State.retire_readF (i : Instr) (q : Reg) : (s.retire i).readF q = s.readF q := by simp [State.readF, State.truncF]
@[simp] theorem State.retire_byteAt (i : Instr) (q : Nat) : (s.retire i).byteAt q = s.byteAt q := by simp [State.byteAt]
@[simp] theorem State.retire_readCsr (i : Instr) (q : BitVec 12) : (s.retire i).readCsr q = s.readCsr q := by simp [State.readCsr]

@[simp] theorem State.retireSc_params (i : Instr) (ok : Bool) : (s.retireSc i ok).params = s.params := rfl
@[simp] theorem State.retireSc_mem (i : Instr) (ok : Bool) : (s.retireSc i ok).mem = s.mem := rfl
@[simp] theorem State.retireSc_history (i : Instr) (ok : Bool) : (s.retireSc i ok).history = s.history := rfl
@[simp] theorem State.retireSc_fetched (i : Instr) (ok : Bool) : (s.retireSc i ok).fetched = s.fetched := rfl
@[simp] theorem State.retireSc_others (i : Instr) (ok : Bool) : (s.retireSc i ok).others = s.others := rfl
@[simp] theorem State.retireSc_draws (i : Instr) (ok : Bool) : (s.retireSc i ok).draws = s.draws := rfl
@[simp] theorem State.retireSc_hart_id (i : Instr) (ok : Bool) : (s.retireSc i ok).hart.id = s.hart.id := rfl
@[simp] theorem State.retireSc_hart_x (i : Instr) (ok : Bool) : (s.retireSc i ok).hart.x = s.hart.x := rfl
@[simp] theorem State.retireSc_hart_f (i : Instr) (ok : Bool) : (s.retireSc i ok).hart.f = s.hart.f := rfl
@[simp] theorem State.retireSc_hart_frm (i : Instr) (ok : Bool) : (s.retireSc i ok).hart.frm = s.hart.frm := rfl
@[simp] theorem State.retireSc_hart_fflags (i : Instr) (ok : Bool) : (s.retireSc i ok).hart.fflags = s.hart.fflags := rfl
@[simp] theorem State.retireSc_hart_entry (i : Instr) (ok : Bool) : (s.retireSc i ok).hart.entry = s.hart.entry := rfl
@[simp] theorem State.retireSc_hart_len (i : Instr) (ok : Bool) : (s.retireSc i ok).hart.len = s.hart.len := rfl
@[simp] theorem State.retireSc_hart_ended (i : Instr) (ok : Bool) : (s.retireSc i ok).hart.ended = s.hart.ended := rfl
@[simp] theorem State.retireSc_hart_lr (i : Instr) (ok : Bool) : (s.retireSc i ok).hart.lr = s.hart.lr := rfl
@[simp] theorem State.retireSc_xlen (i : Instr) (ok : Bool) : (s.retireSc i ok).xlen = s.xlen := by simp [State.xlen]
@[simp] theorem State.retireSc_wideF (i : Instr) (ok : Bool) : (s.retireSc i ok).wideF = s.wideF := by simp [State.wideF]
@[simp] theorem State.retireSc_readX (i : Instr) (ok : Bool) (q : Reg) : (s.retireSc i ok).readX q = s.readX q := by simp [State.readX]
@[simp] theorem State.retireSc_readF (i : Instr) (ok : Bool) (q : Reg) : (s.retireSc i ok).readF q = s.readF q := by simp [State.readF, State.truncF]
@[simp] theorem State.retireSc_byteAt (i : Instr) (ok : Bool) (q : Nat) : (s.retireSc i ok).byteAt q = s.byteAt q := by simp [State.byteAt]
@[simp] theorem State.retireSc_readCsr (i : Instr) (ok : Bool) (q : BitVec 12) : (s.retireSc i ok).readCsr q = s.readCsr q := by simp [State.readCsr]

@[simp] theorem State.retireLast_params (i : Instr) : (s.retireLast i).params = s.params := rfl
@[simp] theorem State.retireLast_mem (i : Instr) : (s.retireLast i).mem = s.mem := rfl
@[simp] theorem State.retireLast_history (i : Instr) : (s.retireLast i).history = s.history := rfl
@[simp] theorem State.retireLast_fetched (i : Instr) : (s.retireLast i).fetched = s.fetched := rfl
@[simp] theorem State.retireLast_others (i : Instr) : (s.retireLast i).others = s.others := rfl
@[simp] theorem State.retireLast_draws (i : Instr) : (s.retireLast i).draws = s.draws := rfl
@[simp] theorem State.retireLast_hart_id (i : Instr) : (s.retireLast i).hart.id = s.hart.id := rfl
@[simp] theorem State.retireLast_hart_pc (i : Instr) : (s.retireLast i).hart.pc = s.hart.pc := rfl
@[simp] theorem State.retireLast_hart_x (i : Instr) : (s.retireLast i).hart.x = s.hart.x := rfl
@[simp] theorem State.retireLast_hart_f (i : Instr) : (s.retireLast i).hart.f = s.hart.f := rfl
@[simp] theorem State.retireLast_hart_frm (i : Instr) : (s.retireLast i).hart.frm = s.hart.frm := rfl
@[simp] theorem State.retireLast_hart_fflags (i : Instr) : (s.retireLast i).hart.fflags = s.hart.fflags := rfl
@[simp] theorem State.retireLast_hart_entry (i : Instr) : (s.retireLast i).hart.entry = s.hart.entry := rfl
@[simp] theorem State.retireLast_hart_len (i : Instr) : (s.retireLast i).hart.len = s.hart.len := rfl
@[simp] theorem State.retireLast_hart_lr (i : Instr) : (s.retireLast i).hart.lr = s.hart.lr := rfl
@[simp] theorem State.retireLast_xlen (i : Instr) : (s.retireLast i).xlen = s.xlen := by simp [State.xlen]
@[simp] theorem State.retireLast_wideF (i : Instr) : (s.retireLast i).wideF = s.wideF := by simp [State.wideF]
@[simp] theorem State.retireLast_pc (i : Instr) : (s.retireLast i).pc = s.pc := by simp [State.pc]
@[simp] theorem State.retireLast_nextPc (i : Instr) : (s.retireLast i).nextPc = s.nextPc := by simp [State.nextPc]
@[simp] theorem State.retireLast_readX (i : Instr) (q : Reg) : (s.retireLast i).readX q = s.readX q := by simp [State.readX]
@[simp] theorem State.retireLast_readF (i : Instr) (q : Reg) : (s.retireLast i).readF q = s.readF q := by simp [State.readF, State.truncF]
@[simp] theorem State.retireLast_byteAt (i : Instr) (q : Nat) : (s.retireLast i).byteAt q = s.byteAt q := by simp [State.byteAt]
@[simp] theorem State.retireLast_readCsr (i : Instr) (q : BitVec 12) : (s.retireLast i).readCsr q = s.readCsr q := by simp [State.readCsr]

@[simp] theorem State.endStream_params  : (s.endStream).params = s.params := rfl
@[simp] theorem State.endStream_mem  : (s.endStream).mem = s.mem := rfl
@[simp] theorem State.endStream_history  : (s.endStream).history = s.history := rfl
@[simp] theorem State.endStream_fetched  : (s.endStream).fetched = s.fetched := rfl
@[simp] theorem State.endStream_others  : (s.endStream).others = s.others := rfl
@[simp] theorem State.endStream_draws  : (s.endStream).draws = s.draws := rfl
@[simp] theorem State.endStream_hart_id  : (s.endStream).hart.id = s.hart.id := rfl
@[simp] theorem State.endStream_hart_pc  : (s.endStream).hart.pc = s.hart.pc := rfl
@[simp] theorem State.endStream_hart_x  : (s.endStream).hart.x = s.hart.x := rfl
@[simp] theorem State.endStream_hart_f  : (s.endStream).hart.f = s.hart.f := rfl
@[simp] theorem State.endStream_hart_frm  : (s.endStream).hart.frm = s.hart.frm := rfl
@[simp] theorem State.endStream_hart_fflags  : (s.endStream).hart.fflags = s.hart.fflags := rfl
@[simp] theorem State.endStream_hart_entry  : (s.endStream).hart.entry = s.hart.entry := rfl
@[simp] theorem State.endStream_hart_len  : (s.endStream).hart.len = s.hart.len := rfl
@[simp] theorem State.endStream_hart_pos  : (s.endStream).hart.pos = s.hart.pos := rfl
@[simp] theorem State.endStream_hart_stream  : (s.endStream).hart.stream = s.hart.stream := rfl
@[simp] theorem State.endStream_hart_lr  : (s.endStream).hart.lr = s.hart.lr := rfl
@[simp] theorem State.endStream_hart_deps  : (s.endStream).hart.deps = s.hart.deps := rfl
@[simp] theorem State.endStream_hart_ctrl  : (s.endStream).hart.ctrl = s.hart.ctrl := rfl
@[simp] theorem State.endStream_xlen  : (s.endStream).xlen = s.xlen := by simp [State.xlen]
@[simp] theorem State.endStream_wideF  : (s.endStream).wideF = s.wideF := by simp [State.wideF]
@[simp] theorem State.endStream_pc  : (s.endStream).pc = s.pc := by simp [State.pc]
@[simp] theorem State.endStream_nextPc  : (s.endStream).nextPc = s.nextPc := by simp [State.nextPc]
@[simp] theorem State.endStream_readX  (q : Reg) : (s.endStream).readX q = s.readX q := by simp [State.readX]
@[simp] theorem State.endStream_readF  (q : Reg) : (s.endStream).readF q = s.readF q := by simp [State.readF, State.truncF]
@[simp] theorem State.endStream_byteAt  (q : Nat) : (s.endStream).byteAt q = s.byteAt q := by simp [State.byteAt]
@[simp] theorem State.endStream_readCsr  (q : BitVec 12) : (s.endStream).readCsr q = s.readCsr q := by simp [State.readCsr]

@[simp] theorem State.afterRead_params (a n : Nat) (d : Bool) (an : Annot) : (s.afterRead a n d an).params = s.params := rfl
@[simp] theorem State.afterRead_mem (a n : Nat) (d : Bool) (an : Annot) : (s.afterRead a n d an).mem = s.mem := rfl
@[simp] theorem State.afterRead_fetched (a n : Nat) (d : Bool) (an : Annot) : (s.afterRead a n d an).fetched = s.fetched := rfl
@[simp] theorem State.afterRead_others (a n : Nat) (d : Bool) (an : Annot) : (s.afterRead a n d an).others = s.others := rfl
@[simp] theorem State.afterRead_hart (a n : Nat) (d : Bool) (an : Annot) : (s.afterRead a n d an).hart = s.hart := rfl
@[simp] theorem State.afterRead_xlen (a n : Nat) (d : Bool) (an : Annot) : (s.afterRead a n d an).xlen = s.xlen := by simp [State.xlen]
@[simp] theorem State.afterRead_wideF (a n : Nat) (d : Bool) (an : Annot) : (s.afterRead a n d an).wideF = s.wideF := by simp [State.wideF]
@[simp] theorem State.afterRead_pc (a n : Nat) (d : Bool) (an : Annot) : (s.afterRead a n d an).pc = s.pc := by simp [State.pc]
@[simp] theorem State.afterRead_nextPc (a n : Nat) (d : Bool) (an : Annot) : (s.afterRead a n d an).nextPc = s.nextPc := by simp [State.nextPc]
@[simp] theorem State.afterRead_readX (a n : Nat) (d : Bool) (an : Annot) (q : Reg) : (s.afterRead a n d an).readX q = s.readX q := by simp [State.readX]
@[simp] theorem State.afterRead_readF (a n : Nat) (d : Bool) (an : Annot) (q : Reg) : (s.afterRead a n d an).readF q = s.readF q := by simp [State.readF, State.truncF]
@[simp] theorem State.afterRead_byteAt (a n : Nat) (d : Bool) (an : Annot) (q : Nat) : (s.afterRead a n d an).byteAt q = s.byteAt q := by simp [State.byteAt]
@[simp] theorem State.afterRead_readCsr (a n : Nat) (d : Bool) (an : Annot) (q : BitVec 12) : (s.afterRead a n d an).readCsr q = s.readCsr q := by simp [State.readCsr]

@[simp] theorem State.memWrite_params (a : Nat) (bs : List Byte) (d : Bool) (an : Annot) (sc : Option Nat) : (s.memWrite a bs d an sc).params = s.params := rfl
@[simp] theorem State.memWrite_fetched (a : Nat) (bs : List Byte) (d : Bool) (an : Annot) (sc : Option Nat) : (s.memWrite a bs d an sc).fetched = s.fetched := rfl
@[simp] theorem State.memWrite_others (a : Nat) (bs : List Byte) (d : Bool) (an : Annot) (sc : Option Nat) : (s.memWrite a bs d an sc).others = s.others := rfl
@[simp] theorem State.memWrite_hart (a : Nat) (bs : List Byte) (d : Bool) (an : Annot) (sc : Option Nat) : (s.memWrite a bs d an sc).hart = s.hart := rfl
@[simp] theorem State.memWrite_xlen (a : Nat) (bs : List Byte) (d : Bool) (an : Annot) (sc : Option Nat) : (s.memWrite a bs d an sc).xlen = s.xlen := by simp [State.xlen]
@[simp] theorem State.memWrite_wideF (a : Nat) (bs : List Byte) (d : Bool) (an : Annot) (sc : Option Nat) : (s.memWrite a bs d an sc).wideF = s.wideF := by simp [State.wideF]
@[simp] theorem State.memWrite_pc (a : Nat) (bs : List Byte) (d : Bool) (an : Annot) (sc : Option Nat) : (s.memWrite a bs d an sc).pc = s.pc := by simp [State.pc]
@[simp] theorem State.memWrite_nextPc (a : Nat) (bs : List Byte) (d : Bool) (an : Annot) (sc : Option Nat) : (s.memWrite a bs d an sc).nextPc = s.nextPc := by simp [State.nextPc]
@[simp] theorem State.memWrite_readX (a : Nat) (bs : List Byte) (d : Bool) (an : Annot) (sc : Option Nat) (q : Reg) : (s.memWrite a bs d an sc).readX q = s.readX q := by simp [State.readX]
@[simp] theorem State.memWrite_readF (a : Nat) (bs : List Byte) (d : Bool) (an : Annot) (sc : Option Nat) (q : Reg) : (s.memWrite a bs d an sc).readF q = s.readF q := by simp [State.readF, State.truncF]
@[simp] theorem State.memWrite_readCsr (a : Nat) (bs : List Byte) (d : Bool) (an : Annot) (sc : Option Nat) (q : BitVec 12) : (s.memWrite a bs d an sc).readCsr q = s.readCsr q := by simp [State.readCsr]

@[simp] theorem State.memAmo_params (a n : Nat) (g : Word → Word) (an : Annot) : (s.memAmo a n g an).params = s.params := rfl
@[simp] theorem State.memAmo_fetched (a n : Nat) (g : Word → Word) (an : Annot) : (s.memAmo a n g an).fetched = s.fetched := rfl
@[simp] theorem State.memAmo_others (a n : Nat) (g : Word → Word) (an : Annot) : (s.memAmo a n g an).others = s.others := rfl
@[simp] theorem State.memAmo_hart (a n : Nat) (g : Word → Word) (an : Annot) : (s.memAmo a n g an).hart = s.hart := rfl
@[simp] theorem State.memAmo_xlen (a n : Nat) (g : Word → Word) (an : Annot) : (s.memAmo a n g an).xlen = s.xlen := by simp [State.xlen]
@[simp] theorem State.memAmo_wideF (a n : Nat) (g : Word → Word) (an : Annot) : (s.memAmo a n g an).wideF = s.wideF := by simp [State.wideF]
@[simp] theorem State.memAmo_pc (a n : Nat) (g : Word → Word) (an : Annot) : (s.memAmo a n g an).pc = s.pc := by simp [State.pc]
@[simp] theorem State.memAmo_nextPc (a n : Nat) (g : Word → Word) (an : Annot) : (s.memAmo a n g an).nextPc = s.nextPc := by simp [State.nextPc]
@[simp] theorem State.memAmo_readX (a n : Nat) (g : Word → Word) (an : Annot) (q : Reg) : (s.memAmo a n g an).readX q = s.readX q := by simp [State.readX]
@[simp] theorem State.memAmo_readF (a n : Nat) (g : Word → Word) (an : Annot) (q : Reg) : (s.memAmo a n g an).readF q = s.readF q := by simp [State.readF, State.truncF]
@[simp] theorem State.memAmo_readCsr (a n : Nat) (g : Word → Word) (an : Annot) (q : BitVec 12) : (s.memAmo a n g an).readCsr q = s.readCsr q := by simp [State.readCsr]

@[simp] theorem State.setLr_params (a n : Nat) : (s.setLr a n).params = s.params := rfl
@[simp] theorem State.setLr_mem (a n : Nat) : (s.setLr a n).mem = s.mem := rfl
@[simp] theorem State.setLr_history (a n : Nat) : (s.setLr a n).history = s.history := rfl
@[simp] theorem State.setLr_fetched (a n : Nat) : (s.setLr a n).fetched = s.fetched := rfl
@[simp] theorem State.setLr_others (a n : Nat) : (s.setLr a n).others = s.others := rfl
@[simp] theorem State.setLr_draws (a n : Nat) : (s.setLr a n).draws = s.draws := rfl
@[simp] theorem State.setLr_hart_id (a n : Nat) : (s.setLr a n).hart.id = s.hart.id := rfl
@[simp] theorem State.setLr_hart_pc (a n : Nat) : (s.setLr a n).hart.pc = s.hart.pc := rfl
@[simp] theorem State.setLr_hart_x (a n : Nat) : (s.setLr a n).hart.x = s.hart.x := rfl
@[simp] theorem State.setLr_hart_f (a n : Nat) : (s.setLr a n).hart.f = s.hart.f := rfl
@[simp] theorem State.setLr_hart_frm (a n : Nat) : (s.setLr a n).hart.frm = s.hart.frm := rfl
@[simp] theorem State.setLr_hart_fflags (a n : Nat) : (s.setLr a n).hart.fflags = s.hart.fflags := rfl
@[simp] theorem State.setLr_hart_entry (a n : Nat) : (s.setLr a n).hart.entry = s.hart.entry := rfl
@[simp] theorem State.setLr_hart_len (a n : Nat) : (s.setLr a n).hart.len = s.hart.len := rfl
@[simp] theorem State.setLr_hart_ended (a n : Nat) : (s.setLr a n).hart.ended = s.hart.ended := rfl
@[simp] theorem State.setLr_hart_pos (a n : Nat) : (s.setLr a n).hart.pos = s.hart.pos := rfl
@[simp] theorem State.setLr_hart_stream (a n : Nat) : (s.setLr a n).hart.stream = s.hart.stream := rfl
@[simp] theorem State.setLr_hart_deps (a n : Nat) : (s.setLr a n).hart.deps = s.hart.deps := rfl
@[simp] theorem State.setLr_hart_ctrl (a n : Nat) : (s.setLr a n).hart.ctrl = s.hart.ctrl := rfl
@[simp] theorem State.setLr_xlen (a n : Nat) : (s.setLr a n).xlen = s.xlen := by simp [State.xlen]
@[simp] theorem State.setLr_wideF (a n : Nat) : (s.setLr a n).wideF = s.wideF := by simp [State.wideF]
@[simp] theorem State.setLr_pc (a n : Nat) : (s.setLr a n).pc = s.pc := by simp [State.pc]
@[simp] theorem State.setLr_nextPc (a n : Nat) : (s.setLr a n).nextPc = s.nextPc := by simp [State.nextPc]
@[simp] theorem State.setLr_readX (a n : Nat) (q : Reg) : (s.setLr a n).readX q = s.readX q := by simp [State.readX]
@[simp] theorem State.setLr_readF (a n : Nat) (q : Reg) : (s.setLr a n).readF q = s.readF q := by simp [State.readF, State.truncF]
@[simp] theorem State.setLr_byteAt (a n : Nat) (q : Nat) : (s.setLr a n).byteAt q = s.byteAt q := by simp [State.byteAt]
@[simp] theorem State.setLr_readCsr (a n : Nat) (q : BitVec 12) : (s.setLr a n).readCsr q = s.readCsr q := by simp [State.readCsr]

@[simp] theorem State.clearLr_params  : (s.clearLr).params = s.params := rfl
@[simp] theorem State.clearLr_mem  : (s.clearLr).mem = s.mem := rfl
@[simp] theorem State.clearLr_history  : (s.clearLr).history = s.history := rfl
@[simp] theorem State.clearLr_fetched  : (s.clearLr).fetched = s.fetched := rfl
@[simp] theorem State.clearLr_others  : (s.clearLr).others = s.others := rfl
@[simp] theorem State.clearLr_draws  : (s.clearLr).draws = s.draws := rfl
@[simp] theorem State.clearLr_hart_id  : (s.clearLr).hart.id = s.hart.id := rfl
@[simp] theorem State.clearLr_hart_pc  : (s.clearLr).hart.pc = s.hart.pc := rfl
@[simp] theorem State.clearLr_hart_x  : (s.clearLr).hart.x = s.hart.x := rfl
@[simp] theorem State.clearLr_hart_f  : (s.clearLr).hart.f = s.hart.f := rfl
@[simp] theorem State.clearLr_hart_frm  : (s.clearLr).hart.frm = s.hart.frm := rfl
@[simp] theorem State.clearLr_hart_fflags  : (s.clearLr).hart.fflags = s.hart.fflags := rfl
@[simp] theorem State.clearLr_hart_entry  : (s.clearLr).hart.entry = s.hart.entry := rfl
@[simp] theorem State.clearLr_hart_len  : (s.clearLr).hart.len = s.hart.len := rfl
@[simp] theorem State.clearLr_hart_ended  : (s.clearLr).hart.ended = s.hart.ended := rfl
@[simp] theorem State.clearLr_hart_pos  : (s.clearLr).hart.pos = s.hart.pos := rfl
@[simp] theorem State.clearLr_hart_stream  : (s.clearLr).hart.stream = s.hart.stream := rfl
@[simp] theorem State.clearLr_hart_deps  : (s.clearLr).hart.deps = s.hart.deps := rfl
@[simp] theorem State.clearLr_hart_ctrl  : (s.clearLr).hart.ctrl = s.hart.ctrl := rfl
@[simp] theorem State.clearLr_xlen  : (s.clearLr).xlen = s.xlen := by simp [State.xlen]
@[simp] theorem State.clearLr_wideF  : (s.clearLr).wideF = s.wideF := by simp [State.wideF]
@[simp] theorem State.clearLr_pc  : (s.clearLr).pc = s.pc := by simp [State.pc]
@[simp] theorem State.clearLr_nextPc  : (s.clearLr).nextPc = s.nextPc := by simp [State.nextPc]
@[simp] theorem State.clearLr_readX  (q : Reg) : (s.clearLr).readX q = s.readX q := by simp [State.readX]
@[simp] theorem State.clearLr_readF  (q : Reg) : (s.clearLr).readF q = s.readF q := by simp [State.readF, State.truncF]
@[simp] theorem State.clearLr_byteAt  (q : Nat) : (s.clearLr).byteAt q = s.byteAt q := by simp [State.byteAt]
@[simp] theorem State.clearLr_readCsr  (q : BitVec 12) : (s.clearLr).readCsr q = s.readCsr q := by simp [State.readCsr]

@[simp] theorem State.drewSc_params  : (s.drewSc).params = s.params := rfl
@[simp] theorem State.drewSc_mem  : (s.drewSc).mem = s.mem := rfl
@[simp] theorem State.drewSc_history  : (s.drewSc).history = s.history := rfl
@[simp] theorem State.drewSc_fetched  : (s.drewSc).fetched = s.fetched := rfl
@[simp] theorem State.drewSc_others  : (s.drewSc).others = s.others := rfl
@[simp] theorem State.drewSc_hart  : (s.drewSc).hart = s.hart := rfl
@[simp] theorem State.drewSc_xlen  : (s.drewSc).xlen = s.xlen := by simp [State.xlen]
@[simp] theorem State.drewSc_wideF  : (s.drewSc).wideF = s.wideF := by simp [State.wideF]
@[simp] theorem State.drewSc_pc  : (s.drewSc).pc = s.pc := by simp [State.pc]
@[simp] theorem State.drewSc_nextPc  : (s.drewSc).nextPc = s.nextPc := by simp [State.nextPc]
@[simp] theorem State.drewSc_readX  (q : Reg) : (s.drewSc).readX q = s.readX q := by simp [State.readX]
@[simp] theorem State.drewSc_readF  (q : Reg) : (s.drewSc).readF q = s.readF q := by simp [State.readF, State.truncF]
@[simp] theorem State.drewSc_byteAt  (q : Nat) : (s.drewSc).byteAt q = s.byteAt q := by simp [State.byteAt]
@[simp] theorem State.drewSc_readCsr  (q : BitVec 12) : (s.drewSc).readCsr q = s.readCsr q := by simp [State.readCsr]

@[simp] theorem State.noteFetch_params  : (s.noteFetch).params = s.params := rfl
@[simp] theorem State.noteFetch_mem  : (s.noteFetch).mem = s.mem := rfl
@[simp] theorem State.noteFetch_history  : (s.noteFetch).history = s.history := rfl
@[simp] theorem State.noteFetch_others  : (s.noteFetch).others = s.others := rfl
@[simp] theorem State.noteFetch_draws  : (s.noteFetch).draws = s.draws := rfl
@[simp] theorem State.noteFetch_hart  : (s.noteFetch).hart = s.hart := rfl
@[simp] theorem State.noteFetch_xlen  : (s.noteFetch).xlen = s.xlen := by simp [State.xlen]
@[simp] theorem State.noteFetch_wideF  : (s.noteFetch).wideF = s.wideF := by simp [State.wideF]
@[simp] theorem State.noteFetch_pc  : (s.noteFetch).pc = s.pc := by simp [State.pc]
@[simp] theorem State.noteFetch_nextPc  : (s.noteFetch).nextPc = s.nextPc := by simp [State.nextPc]
@[simp] theorem State.noteFetch_readX  (q : Reg) : (s.noteFetch).readX q = s.readX q := by simp [State.readX]
@[simp] theorem State.noteFetch_readF  (q : Reg) : (s.noteFetch).readF q = s.readF q := by simp [State.readF, State.truncF]
@[simp] theorem State.noteFetch_byteAt  (q : Nat) : (s.noteFetch).byteAt q = s.byteAt q := by simp [State.byteAt]
@[simp] theorem State.noteFetch_readCsr  (q : BitVec 12) : (s.noteFetch).readCsr q = s.readCsr q := by simp [State.readCsr]

/-! ### The fields an update sets -/

theorem State.writeX_zero (v : Word) : s.writeX 0 v = s := rfl
@[simp] theorem State.writeF_hart_f (r : Reg) (v : Word) :
    (s.writeF r v).hart.f = s.hart.f.set r.toNat (s.truncF v) r.isLt := rfl
@[simp] theorem State.accrue_hart_fflags (c v : FlagBits) :
    (s.accrue c v).hart.fflags = s.hart.fflags ||| (v &&& c) := rfl
@[simp] theorem State.retireTo_hart_pc (i : Instr) (p : Word) : (s.retireTo i p).hart.pc = p := rfl
@[simp] theorem State.retireTo_hart_pos (i : Instr) (p : Word) : (s.retireTo i p).hart.pos = s.hart.pos + 1 := rfl
@[simp] theorem State.retireTo_hart_stream (i : Instr) (p : Word) :
    (s.retireTo i p).hart.stream = { instr := i, scOk := false } :: s.hart.stream := rfl
@[simp] theorem State.retire_hart_pc (i : Instr) : (s.retire i).hart.pc = s.nextPc := rfl
@[simp] theorem State.retire_hart_pos (i : Instr) : (s.retire i).hart.pos = s.hart.pos + 1 := rfl
@[simp] theorem State.retire_hart_stream (i : Instr) :
    (s.retire i).hart.stream = { instr := i, scOk := false } :: s.hart.stream := rfl
@[simp] theorem State.retireSc_hart_pc (i : Instr) (ok : Bool) : (s.retireSc i ok).hart.pc = s.nextPc := rfl
@[simp] theorem State.retireSc_hart_pos (i : Instr) (ok : Bool) :
    (s.retireSc i ok).hart.pos = s.hart.pos + 1 := rfl
@[simp] theorem State.retireSc_hart_stream (i : Instr) (ok : Bool) :
    (s.retireSc i ok).hart.stream = { instr := i, scOk := ok } :: s.hart.stream := rfl
@[simp] theorem State.retireLast_hart_ended (i : Instr) : (s.retireLast i).hart.ended = true := rfl
@[simp] theorem State.retireLast_hart_pos (i : Instr) : (s.retireLast i).hart.pos = s.hart.pos + 1 := rfl
@[simp] theorem State.retireLast_hart_stream (i : Instr) :
    (s.retireLast i).hart.stream = { instr := i, scOk := false } :: s.hart.stream := rfl
@[simp] theorem State.endStream_hart_ended : s.endStream.hart.ended = true := rfl
@[simp] theorem State.setLr_hart_lr (a n : Nat) :
    (s.setLr a n).hart.lr = some { inst := s.hart.pos, addr := a, width := n } := rfl
@[simp] theorem State.clearLr_hart_lr : s.clearLr.hart.lr = none := rfl
@[simp] theorem State.memWrite_mem (a : Nat) (bs : List Byte) (d : Bool) (an : Annot) (sc : Option Nat) :
    (s.memWrite a bs d an sc).mem = s.mem.write a bs := rfl
@[simp] theorem State.memAmo_mem (a n : Nat) (g : Word → Word) (an : Annot) :
    (s.memAmo a n g an).mem = s.mem.write a (bytesOf n (g (wordOf (s.memRead a n)))) := rfl

/-! ### Reset -/

theorem State.reset_pc : State.reset.pc = 0 := rfl
theorem State.reset_mem : State.reset.mem = [] := rfl
theorem State.reset_history : State.reset.history = [] := rfl

end Sys2Proof.Machine
end

