-- ==== Sys2Proof/Laws/Memory.lean ====
section
/-! SUPPORT. Memory: what reading after writing gives, and that every memory operation keeps the canonical form. -/

namespace Sys2Proof.Machine

variable {α : Type}

/-! ### Lists of key and value pairs -/

theorem Sparse.get?_put (m : Sparse α) (a : Nat) (v : α) (b : Nat) :
    Sparse.get? (Sparse.put m a v) b = if a = b then some v else Sparse.get? m b := by
  induction m with
  | nil => simp [Sparse.put, Sparse.get?]
  | cons c m ih =>
    obtain ⟨k, w⟩ := c
    by_cases h1 : a < k
    · simp [Sparse.put, Sparse.get?, h1]
    · by_cases h2 : a = k
      · subst h2
        simp only [Sparse.put, lt_irrefl, if_false, if_true, Sparse.get?]
        split_ifs <;> rfl
      · simp only [Sparse.put, h1, h2, if_false, Sparse.get?, ih]
        by_cases h3 : k = b
        · subst h3; simp [h2]
        · simp [h3]

theorem Sparse.key_mem_put {m : Sparse α} {a : Nat} {v : α} {c : Nat × α} (h : c ∈ Sparse.put m a v) :
    c.1 = a ∨ c ∈ m := by
  induction m with
  | nil => simp [Sparse.put] at h; simp [h]
  | cons d m ih =>
    obtain ⟨k, w⟩ := d
    simp only [Sparse.put] at h
    split_ifs at h with h1 h2
    · rcases List.mem_cons.1 h with rfl | h
      · exact .inl rfl
      · exact .inr h
    · rcases List.mem_cons.1 h with rfl | h
      · exact .inl rfl
      · exact .inr (List.mem_cons_of_mem _ h)
    · rcases List.mem_cons.1 h with rfl | h
      · exact .inr (List.mem_cons_self ..)
      · exact (ih h).imp_right (List.mem_cons_of_mem _)

theorem Sparse.wf_put {m : Sparse α} (h : Sparse.wf m) (a : Nat) (v : α) : Sparse.wf (Sparse.put m a v) := by
  induction m with
  | nil => simp [Sparse.put, Sparse.wf]
  | cons c m ih =>
    obtain ⟨k, w⟩ := c
    have hc := List.pairwise_cons.1 h
    simp only [Sparse.put]
    split_ifs with h1 h2
    · refine List.pairwise_cons.2 ⟨fun d hd => ?_, h⟩
      rcases List.mem_cons.1 hd with rfl | hd
      · exact h1
      · exact lt_trans h1 (hc.1 d hd)
    · subst h2
      exact List.pairwise_cons.2 ⟨hc.1, hc.2⟩
    · refine List.pairwise_cons.2 ⟨fun d hd => ?_, ih hc.2⟩
      rcases Sparse.key_mem_put hd with h3 | h3
      · show k < d.1
        omega
      · exact hc.1 d h3

theorem Sparse.mem_of_mem_del {m : Sparse α} {a : Nat} {c : Nat × α} (h : c ∈ Sparse.del m a) : c ∈ m := by
  induction m with
  | nil => simp [Sparse.del] at h
  | cons d m ih =>
    obtain ⟨k, w⟩ := d
    simp only [Sparse.del] at h
    split_ifs at h
    · exact List.mem_cons_of_mem _ h
    · rcases List.mem_cons.1 h with rfl | h
      · exact List.mem_cons_self ..
      · exact List.mem_cons_of_mem _ (ih h)

theorem Sparse.wf_del {m : Sparse α} (h : Sparse.wf m) (a : Nat) : Sparse.wf (Sparse.del m a) := by
  induction m with
  | nil => simp [Sparse.del, Sparse.wf]
  | cons c m ih =>
    obtain ⟨k, w⟩ := c
    have hc := List.pairwise_cons.1 h
    simp only [Sparse.del]
    split_ifs
    · exact hc.2
    · exact List.pairwise_cons.2 ⟨fun d hd => hc.1 d (Sparse.mem_of_mem_del hd), ih hc.2⟩

theorem Sparse.get?_none_of_lt {m : Sparse α} {a : Nat} (h : ∀ c ∈ m, a < c.1) : Sparse.get? m a = none := by
  induction m with
  | nil => rfl
  | cons c m ih =>
    obtain ⟨k, w⟩ := c
    have := h (k, w) (List.mem_cons_self ..)
    simp only [Sparse.get?]
    rw [if_neg (by simp only at this; omega)]
    exact ih (fun d hd => h d (List.mem_cons_of_mem _ hd))

theorem Sparse.get?_del {m : Sparse α} (h : Sparse.wf m) (a b : Nat) :
    Sparse.get? (Sparse.del m a) b = if a = b then none else Sparse.get? m b := by
  induction m with
  | nil => simp [Sparse.del, Sparse.get?]
  | cons c m ih =>
    obtain ⟨k, w⟩ := c
    have hc := List.pairwise_cons.1 h
    simp only [Sparse.del, Sparse.get?]
    by_cases h1 : k = a
    · subst h1
      rw [if_pos rfl]
      by_cases h2 : k = b
      · subst h2; rw [if_pos rfl]; exact Sparse.get?_none_of_lt hc.1
      · rw [if_neg h2, if_neg h2]
    · rw [if_neg h1]
      simp only [Sparse.get?, ih hc.2]
      by_cases h3 : k = b
      · subst h3; rw [if_pos rfl, if_pos rfl, if_neg (Ne.symm h1)]
      · rw [if_neg h3, if_neg h3]

/-! ### Bytes -/

@[simp] theorem bytesOf_length (n : Nat) (w : Word) : (bytesOf n w).length = n := by
  induction n generalizing w with
  | zero => rfl
  | succ n ih => simp [bytesOf, ih]

@[simp] theorem State.bytesAt_length (s : State) (a n : Nat) : (s.bytesAt a n).length = n := by
  induction n generalizing a with
  | zero => rfl
  | succ n ih => simp [State.bytesAt, ih]

@[simp] theorem Draws.takeBytes_length (d : Draws) (n : Nat) : (d.takeBytes n).1.length = n := by
  induction n generalizing d with
  | zero => rfl
  | succ n ih => simp [Draws.takeBytes, ih]

@[simp] theorem State.memRead_length (s : State) (a n : Nat) : (s.memRead a n).length = n := by
  unfold State.memRead State.loaded
  split_ifs <;> simp

/-- The k-th byte of a value is bits 8k+7..8k (20_memory.md R100). -/
theorem bytesOf_get (n k : Nat) (w : Word) (h : k < n) : (bytesOf n w)[k]? = some ((w >>> (8 * k)).setWidth 8) := by
  induction n generalizing k w with
  | zero => omega
  | succ n ih =>
    cases k with
    | zero => simp [bytesOf]
    | succ k =>
      rw [bytesOf, List.getElem?_cons_succ, ih k _ (by omega), ← BitVec.shiftRight_add, show 8 + 8 * k = 8 * (k + 1) by omega]

theorem State.bytesAt_get (s : State) (a n k : Nat) (h : k < n) : (s.bytesAt a n)[k]? = some (s.byteAt (a + k)) := by
  induction n generalizing a k with
  | zero => omega
  | succ n ih =>
    cases k with
    | zero => simp [State.bytesAt]
    | succ k =>
      rw [State.bytesAt, List.getElem?_cons_succ, ih _ k (by omega)]
      congr 2
      omega

/-- Bytes read from two states agree if every byte does. -/
theorem State.bytesAt_congr (s t : State) (a n : Nat) (h : ∀ k, k < n → s.byteAt (a + k) = t.byteAt (a + k)) :
    s.bytesAt a n = t.bytesAt a n := by
  induction n generalizing a with
  | zero => rfl
  | succ n ih =>
    simp only [State.bytesAt]
    have h0 := h 0 (by omega)
    rw [Nat.add_zero] at h0
    rw [h0, ih (a + 1) (fun k hk => by have := h (k + 1) (by omega); rwa [Nat.add_comm k 1, ← Nat.add_assoc] at this)]

/-! ### Memory -/

/-- What a write leaves at every address: the bytes written, and every other address as it was. -/
theorem Memory.at?_write (m : Memory) (a : Nat) (bs : List Byte) (x : Nat) :
    (Memory.write m a bs).at? x = if a ≤ x ∧ x < a + bs.length then bs[x - a]? else m.at? x := by
  induction bs generalizing m a with
  | nil =>
    rw [if_neg (by simp only [List.length_nil]; omega)]
    rfl
  | cons b bs ih =>
    rw [Memory.write, ih]
    simp only [List.length_cons]
    by_cases h1 : a + 1 ≤ x ∧ x < a + 1 + bs.length
    · rw [if_pos h1, if_pos (by omega), show x - a = (x - (a + 1)) + 1 by omega, List.getElem?_cons_succ]
    · rw [if_neg h1, Memory.at?, Sparse.get?_put]
      by_cases h2 : a = x
      · subst h2
        rw [if_pos rfl, if_pos (by omega), Nat.sub_self, List.getElem?_cons_zero]
      · rw [if_neg h2, if_neg (by omega), Memory.at?]

theorem Memory.at?_write_of_not_mem (m : Memory) (a : Nat) (bs : List Byte) (x : Nat)
    (h : ¬ (a ≤ x ∧ x < a + bs.length)) : (Memory.write m a bs).at? x = m.at? x := by
  rw [Memory.at?_write, if_neg h]

/-- A write keeps the canonical form. -/
theorem Memory.wf_write {m : Memory} (h : m.wf) (a : Nat) (bs : List Byte) : (Memory.write m a bs).wf := by
  induction bs generalizing m a with
  | nil => exact h
  | cons b bs ih => exact ih (Sparse.wf_put h a b) (a + 1)

/-- Forgetting writes keeps the canonical form. -/
theorem Memory.wf_forget {m : Memory} (h : m.wf) (a n : Nat) : (Memory.forget m a n).wf := by
  induction n generalizing m a with
  | zero => exact h
  | succ n ih => exact ih (Sparse.wf_del h a) (a + 1)

theorem Memory.wf_reset : State.reset.mem.wf := List.Pairwise.nil

/-- Reading a byte after `MemWrite`: the byte written, or what was there. -/
theorem State.byteAt_memWrite (s : State) (a : Nat) (bs : List Byte) (d : Bool) (an : Annot) (sc : Option Nat)
    (x : Nat) :
    (s.memWrite a bs d an sc).byteAt x =
      if h : a ≤ x ∧ x < a + bs.length then bs[x - a]'(by omega) else s.byteAt x := by
  have hx : x - a < bs.length ∨ ¬ (a ≤ x ∧ x < a + bs.length) := by omega
  unfold State.byteAt
  rw [State.memWrite_mem, Memory.at?_write, State.memWrite_params]
  split_ifs with h
  · rw [List.getElem?_eq_getElem (by omega)]
  · rfl

/-- Reading a byte after `MemAMO`. -/
theorem State.byteAt_memAmo (s : State) (a n : Nat) (g : Word → Word) (an : Annot) (x : Nat) :
    (s.memAmo a n g an).byteAt x =
      if h : a ≤ x ∧ x < a + n then ((bytesOf n (g (wordOf (s.memRead a n))))[x - a]'(by rw [bytesOf_length]; omega))
      else s.byteAt x := by
  unfold State.byteAt
  rw [State.memAmo_mem, Memory.at?_write, State.memAmo_params]
  by_cases h : a ≤ x ∧ x < a + n
  · rw [if_pos (by rw [bytesOf_length]; exact h), dif_pos h,
      List.getElem?_eq_getElem (by rw [bytesOf_length]; omega)]
  · rw [if_neg (by rw [bytesOf_length]; exact h), dif_neg h]

end Sys2Proof.Machine
end

