-- ==== Sys2Proof/Laws/Values.lean ====
section
/-! SUPPORT. Values of width XLEN in their container, as numbers; the bytes of a value and the value of bytes. -/

namespace Sys2Proof

/-- XLEN is 32 or 64. -/
theorem Xlen.bits_le (x : Xlen) : x.bits ≤ 64 := by cases x <;> decide

theorem Xlen.bits_pos (x : Xlen) : 0 < x.bits := by cases x <;> decide

theorem Xlen.trunc_toNat (x : Xlen) (w : Word) : (x.trunc w).toNat = w.toNat % 2 ^ x.bits := by
  cases x
  · simp only [Xlen.trunc, Xlen.bits, BitVec.toNat_setWidth]
    omega
  · simp only [Xlen.trunc, Xlen.bits]
    exact (Nat.mod_eq_of_lt w.isLt).symm

theorem Xlen.trunc_lt (x : Xlen) (w : Word) : (x.trunc w).toNat < 2 ^ x.bits := by
  rw [Xlen.trunc_toNat]
  exact Nat.mod_lt _ (Nat.two_pow_pos _)

theorem Xlen.trunc_of_lt (x : Xlen) (w : Word) (h : w.toNat < 2 ^ x.bits) : x.trunc w = w := by
  apply BitVec.eq_of_toNat_eq
  rw [Xlen.trunc_toNat, Nat.mod_eq_of_lt h]

@[simp] theorem Xlen.trunc_trunc (x : Xlen) (w : Word) : x.trunc (x.trunc w) = x.trunc w :=
  x.trunc_of_lt _ (x.trunc_lt w)

/-- A field taken signed, modulo 2^XLEN. -/
theorem Xlen.sext_toNat {n : Nat} (x : Xlen) (v : BitVec n) (h : n ≤ 64) :
    ((x.sext v).toNat : Int) = v.toInt % 2 ^ x.bits := by
  have h1 : (v.signExtend 64).toInt = v.toInt := BitVec.toInt_signExtend_of_le h
  have h2 := BitVec.toInt_eq_toNat_cond (v.signExtend 64)
  have h3 := (v.signExtend 64).isLt
  rw [Xlen.sext, Xlen.trunc_toNat]
  push_cast
  rw [← h1, h2]
  cases x
  · simp only [Xlen.bits]
    split_ifs <;> omega
  · simp only [Xlen.bits]
    split_ifs <;> omega

/-- A binary operation is computed on the values of width XLEN. -/
theorem Xlen.bin_toNat (x : Xlen) (f : (n : Nat) → BitVec n → BitVec n → BitVec n) (a b : Word) :
    (x.bin f a b).toNat = (f x.bits (a.setWidth x.bits) (b.setWidth x.bits)).toNat := by
  cases x
  · simp only [Xlen.bin, Xlen.bits, BitVec.toNat_setWidth]
    have := (f 32 (a.setWidth 32) (b.setWidth 32)).isLt
    omega
  · simp [Xlen.bin, Xlen.bits]

theorem Xlen.test_eq (x : Xlen) (f : (n : Nat) → BitVec n → BitVec n → Bool) (a b : Word) :
    x.test f a b = f x.bits (a.setWidth x.bits) (b.setWidth x.bits) := by
  cases x
  · rfl
  · simp [Xlen.test, Xlen.bits]

theorem Xlen.setWidth_toNat (x : Xlen) (a : Word) : (a.setWidth x.bits).toNat = a.toNat % 2 ^ x.bits := by
  rw [BitVec.toNat_setWidth]

namespace Machine

@[simp] theorem boolWord_toNat (b : Bool) : (boolWord b).toNat = if b then 1 else 0 := by cases b <;> rfl

/-- A word operation on RV64 gives the 32-bit result as a signed number, modulo 2^64. -/
theorem wordOp_toNat (f : BitVec 32 → BitVec 32 → BitVec 32) (a b : Word) :
    ((wordOp f a b).toNat : Int) = (f (a.setWidth 32) (b.setWidth 32)).toInt % 2 ^ 64 := by
  have h1 : ((f (a.setWidth 32) (b.setWidth 32)).signExtend 64).toInt = _ := BitVec.toInt_signExtend_of_le (by omega)
  have h2 := BitVec.toInt_eq_toNat_cond ((f (a.setWidth 32) (b.setWidth 32)).signExtend 64)
  have h3 := ((f (a.setWidth 32) (b.setWidth 32)).signExtend 64).isLt
  rw [wordOp, ← h1, h2]
  split_ifs <;> omega

/-- The value of the bytes of a value, lowest first, as a number. -/
theorem wordOf_bytesOf (n : Nat) (w : Word) (h : n ≤ 8) : (wordOf (bytesOf n w)).toNat = w.toNat % 2 ^ (8 * n) := by
  induction n generalizing w with
  | zero => simp [bytesOf, wordOf, Nat.mod_one]
  | succ n ih =>
    have hi := ih (w >>> 8) (by omega)
    rw [bytesOf, wordOf, BitVec.toNat_or, BitVec.toNat_shiftLeft, hi, BitVec.toNat_setWidth, BitVec.toNat_setWidth,
      BitVec.toNat_ushiftRight, Nat.shiftRight_eq_div_pow, Nat.shiftLeft_eq]
    have h1 : w.toNat / 2 ^ 8 % 2 ^ (8 * n) * 2 ^ 8 < 2 ^ 64 := by
      have h2 : w.toNat / 2 ^ 8 % 2 ^ (8 * n) < 2 ^ (8 * n) := Nat.mod_lt _ (Nat.two_pow_pos _)
      have h3 : 2 ^ (8 * n) ≤ 2 ^ 56 := Nat.pow_le_pow_right (by omega) (by omega)
      omega
    rw [Nat.mod_eq_of_lt h1, Nat.mod_eq_of_lt (show w.toNat % 2 ^ 8 < 2 ^ 64 by omega), Nat.or_comm,
      Nat.mul_comm, ← Nat.two_pow_add_eq_or_of_lt (by omega)]
    rw [show 8 * (n + 1) = 8 + 8 * n by ring, pow_add, Nat.mod_mul]
    ring

/-- The value of at most eight bytes: the first, and 256 times the value of the rest. -/
theorem wordOf_cons (b : Byte) (bs : List Byte) (h : bs.length < 8) :
    (wordOf (b :: bs)).toNat = b.toNat + 256 * (wordOf bs).toNat ∧ (wordOf bs).toNat < 2 ^ (8 * bs.length) := by
  induction bs generalizing b with
  | nil => have := b.isLt; simp [wordOf]; omega
  | cons c cs ih =>
    have hc := ih c (by simp at h; omega)
    have h1 : (wordOf (c :: cs)).toNat < 2 ^ (8 * (c :: cs).length) := by
      rw [hc.1]
      have := c.isLt
      rw [List.length_cons, show 8 * (cs.length + 1) = 8 * cs.length + 8 by ring, pow_add]
      omega
    refine ⟨?_, h1⟩
    have h2 : (2 : Nat) ^ (8 * (c :: cs).length) ≤ 2 ^ 56 := Nat.pow_le_pow_right (by omega) (by simp at h ⊢; omega)
    rw [wordOf, BitVec.toNat_or, BitVec.toNat_shiftLeft, BitVec.toNat_setWidth, Nat.shiftLeft_eq,
      Nat.mod_eq_of_lt (show (wordOf (c :: cs)).toNat * 2 ^ 8 < 2 ^ 64 by omega),
      Nat.mod_eq_of_lt (show b.toNat < 2 ^ 64 by have := b.isLt; omega), Nat.or_comm, Nat.mul_comm,
      ← Nat.two_pow_add_eq_or_of_lt (by have := b.isLt; omega)]
    ring

end Machine
end Sys2Proof
end

