-- ==== Sys2Proof/Laws/Registers.lean ====
section
/-! SUPPORT. The register files: what reading after writing gives. -/

namespace Sys2Proof.Machine

variable (s : State)

@[simp] theorem State.readX_zero : s.readX 0 = 0 := by simp [State.readX]

theorem State.readX_lt (r : Reg) : (s.readX r).toNat < 2 ^ s.xlen.bits := by
  unfold State.readX
  split_ifs
  · exact Nat.two_pow_pos _
  · exact Xlen.trunc_lt _ _

@[simp] theorem State.trunc_readX (r : Reg) : s.xlen.trunc (s.readX r) = s.readX r :=
  Xlen.trunc_of_lt _ _ (s.readX_lt r)

theorem State.pc_lt : s.pc.toNat < 2 ^ s.xlen.bits := Xlen.trunc_lt _ _

/-- Reading any integer register after a write: the value modulo 2^XLEN in the register written, which is not x0. -/
theorem State.readX_writeX (r q : Reg) (v : Word) :
    (s.writeX r v).readX q = if q = r ∧ q ≠ 0 then s.xlen.trunc v else s.readX q := by
  by_cases hr : r = 0
  · subst hr
    simp only [State.writeX, if_true]
    rw [if_neg (by rintro ⟨rfl, h⟩; exact h rfl)]
  · by_cases hq : q = r
    · subst hq
      rw [if_pos ⟨rfl, hr⟩]
      simp only [State.readX, State.writeX, hr, if_false, State.xlen]
      simp
    · rw [if_neg (fun h => hq h.1)]
      unfold State.readX
      split_ifs
      · rfl
      · have hne : r.toNat ≠ q.toNat := fun h => hq (BitVec.eq_of_toNat_eq h.symm)
        simp only [State.writeX, if_neg hr, State.xlen]
        rw [Vector.getElem_set_ne _ _ hne]

@[simp] theorem State.readX_writeX_same {r : Reg} (h : r ≠ 0) (v : Word) :
    (s.writeX r v).readX r = s.xlen.trunc v := by rw [State.readX_writeX, if_pos ⟨rfl, h⟩]

theorem State.readX_writeX_other {r q : Reg} (h : q ≠ r) (v : Word) : (s.writeX r v).readX q = s.readX q := by
  rw [State.readX_writeX, if_neg (fun k => h k.1)]

theorem State.truncF_toNat (v : Word) :
    (s.truncF v).toNat = v.toNat % 2 ^ (if s.params.ext.d = true then 64 else 32) := by
  unfold State.truncF State.wideF
  split_ifs
  · exact (Nat.mod_eq_of_lt v.isLt).symm
  · simp only [BitVec.toNat_setWidth]
    omega

@[simp] theorem State.truncF_truncF (v : Word) : s.truncF (s.truncF v) = s.truncF v := by
  apply BitVec.eq_of_toNat_eq
  rw [State.truncF_toNat, State.truncF_toNat, Nat.mod_mod]

/-- Reading any floating-point register after a write. -/
theorem State.readF_writeF (r q : Reg) (v : Word) :
    (s.writeF r v).readF q = if q = r then s.truncF v else s.readF q := by
  by_cases hq : q = r
  · subst hq
    rw [if_pos rfl]
    show s.truncF ((s.hart.f.set q.toNat (s.truncF v) q.isLt)[q.toNat]'q.isLt) = s.truncF v
    rw [Vector.getElem_set_self, State.truncF_truncF]
  · rw [if_neg hq]
    have hne : r.toNat ≠ q.toNat := fun h => hq (BitVec.eq_of_toNat_eq h.symm)
    show s.truncF ((s.hart.f.set r.toNat (s.truncF v) r.isLt)[q.toNat]'q.isLt) = s.truncF (s.hart.f[q.toNat]'q.isLt)
    rw [Vector.getElem_set_ne _ _ hne]

/-- The rounding mode is not touched by register writes. -/
@[simp] theorem State.writeX_rounding (r : Reg) (v : Word) (rm : BitVec 3) :
    (s.writeX r v).rounding rm = s.rounding rm := by simp [State.rounding]

/-- The effective address as a number. -/
theorem State.effAddr_eq (rs1 : Reg) (imm : BitVec 12) :
    (s.effAddr rs1 imm : Int) = ((s.readX rs1).toNat + imm.toInt) % 2 ^ s.xlen.bits := by
  have h := Xlen.sext_toNat s.xlen imm (by omega)
  unfold State.effAddr State.imm
  rw [Xlen.trunc_toNat, BitVec.toNat_add, Nat.mod_mod_of_dvd _ (pow_dvd_pow 2 s.xlen.bits_le)]
  push_cast
  rw [h, Int.add_emod, Int.emod_emod_of_dvd _ (dvd_refl _), ← Int.add_emod]

theorem State.effAddr_lt (rs1 : Reg) (imm : BitVec 12) : s.effAddr rs1 imm < 2 ^ s.xlen.bits := Xlen.trunc_lt _ _

/-! ### Operands at width XLEN, as numbers -/

/-- A register operand, unsigned. -/
theorem State.operand_toNat (r : Reg) : ((s.readX r).setWidth s.xlen.bits).toNat = (s.readX r).toNat := by
  rw [Xlen.setWidth_toNat, Nat.mod_eq_of_lt (s.readX_lt r)]

/-- A register operand, signed. -/
theorem State.operand_toInt (r : Reg) :
    ((s.readX r).setWidth s.xlen.bits).toInt = ((s.readX r).toNat : Int).bmod (2 ^ s.xlen.bits) := by
  rw [BitVec.toInt_eq_toNat_bmod, State.operand_toNat]

/-- An immediate operand, unsigned. -/
theorem State.imm_toNat {n : Nat} (v : BitVec n) (h : n ≤ 64) :
    (((s.imm v).setWidth s.xlen.bits).toNat : Int) = v.toInt % 2 ^ s.xlen.bits := by
  have h1 := Xlen.sext_toNat s.xlen v h
  have h2 : (s.imm v).toNat < 2 ^ s.xlen.bits := s.xlen.trunc_lt _
  rw [Xlen.setWidth_toNat, Nat.mod_eq_of_lt h2, ← h1]
  rfl

/-- An immediate operand, signed. -/
theorem State.imm_toInt {n : Nat} (v : BitVec n) (h : n ≤ 32) : ((s.imm v).setWidth s.xlen.bits).toInt = v.toInt := by
  rw [BitVec.toInt_eq_toNat_bmod, s.imm_toNat v (by omega)]
  have h0 := @Int.emod_bmod v.toInt (2 ^ s.xlen.bits)
  push_cast at h0
  rw [h0]
  have h1 : (2 : Int) ^ (n - 1) ≤ 2 ^ 31 := by exact_mod_cast Nat.pow_le_pow_right (by omega) (by omega)
  have h2 := @BitVec.toInt_lt n v
  have h3 := @BitVec.le_toInt n v
  rw [Int.bmod_def]
  cases hx : s.xlen <;> simp only [Xlen.bits] <;> split_ifs <;> norm_num at * <;> omega

/-- A U immediate. -/
theorem State.immU_toNat (v : BitVec 20) : ((s.immU v).toNat : Int) = v.toInt * 4096 % 2 ^ s.xlen.bits := by
  unfold State.immU
  rw [Xlen.sext_toNat _ _ (by omega)]
  congr 1
  have h : (v ++ (0 : BitVec 12)).toNat = v.toNat * 4096 := by
    rw [BitVec.toNat_append]
    simp [Nat.shiftLeft_eq]
  rw [BitVec.toInt_eq_toNat_cond, BitVec.toInt_eq_toNat_cond, h]
  split_ifs <;> push_cast <;> omega

/-- The value a binary operation writes. -/
theorem State.bin_written (f : (n : Nat) → BitVec n → BitVec n → BitVec n) (a b : Word) :
    (s.xlen.trunc (s.xlen.bin f a b)).toNat = (f s.xlen.bits (a.setWidth s.xlen.bits) (b.setWidth s.xlen.bits)).toNat := by
  rw [Xlen.trunc_toNat, Xlen.bin_toNat, Nat.mod_eq_of_lt (BitVec.isLt _)]

/-- The value a truth value writes. -/
theorem State.bool_written (b : Bool) : (s.xlen.trunc (boolWord b)).toNat = if b then 1 else 0 := by
  rw [Xlen.trunc_toNat, boolWord_toNat]
  cases s.xlen <;> cases b <;> simp [Xlen.bits]

/-- The address after this instruction, as a number. -/
theorem State.nextPc_toNat : s.nextPc.toNat = (s.pc.toNat + 4) % 2 ^ s.xlen.bits := by
  unfold State.nextPc
  rw [Xlen.trunc_toNat, BitVec.toNat_add, Nat.mod_mod_of_dvd _ (pow_dvd_pow 2 s.xlen.bits_le)]
  rfl

/-- The target of JAL and of a taken branch, as a number. -/
theorem State.pcTarget_toNat {n : Nat} (v : BitVec n) (h : n ≤ 64) :
    ((s.pcTarget v).toNat : Int) = (s.pc.toNat + v.toInt) % 2 ^ s.xlen.bits := by
  have h1 := Xlen.sext_toNat s.xlen v h
  unfold State.pcTarget State.imm
  rw [Xlen.trunc_toNat, BitVec.toNat_add, Nat.mod_mod_of_dvd _ (pow_dvd_pow 2 s.xlen.bits_le)]
  push_cast
  rw [h1, Int.add_emod, Int.emod_emod_of_dvd _ (dvd_refl _), ← Int.add_emod]

end Sys2Proof.Machine
end

