-- ==== Sys2Proof/Laws/Ops.lean ====
section
/-! SUPPORT. For each shared operation of the meanings, one lemma that says all it can do when it answers a next state, and
what its stops are. -/

namespace Sys2Proof.Machine

variable {s t : State} {i : Instr}

/-! ### Stops -/

theorem Stop.result_ne_next (st : Stop) (t : State) : st.result ≠ .next t := by cases st <;> simp [Stop.result]

/-- It goes on exactly when nothing stops it. -/
theorem orStop_eq_next {o : Option Stop} {k : Result} : orStop o k = .next t ↔ o = none ∧ k = .next t := by
  cases o with
  | none => simp [orStop]
  | some st => simp [orStop, Stop.result_ne_next]

@[simp] theorem firstStop_eq_none {a b : Option Stop} : firstStop a b = none ↔ a = none ∧ b = none := by
  cases a <;> simp [firstStop]

theorem aligned_iff {a n : Nat} : aligned a n = true ↔ a % n = 0 := by simp [aligned]

theorem touchesIo_iff {p : Params} {a n : Nat} : touchesIo p a n = true ↔ ∃ k, k < n ∧ regionOf p (a + k) = .io := by
  simp [touchesIo]

theorem Region.ne_io {r : Region} : r ≠ .io ↔ r = .main := by cases r <;> decide

/-- No io byte, and within the address space. -/
theorem State.regionStop_eq_none {a n : Nat} :
    s.regionStop a n = none ↔ (∀ k, k < n → regionOf s.params (a + k) = .main) ∧ a + n ≤ s.xlen.size := by
  unfold State.regionStop
  have h := touchesIo_iff (p := s.params) (a := a) (n := n)
  by_cases ht : touchesIo s.params a n = true
  · obtain ⟨k, hk, hio⟩ := h.1 ht
    rw [if_pos ht]
    simp only [reduceCtorEq, false_iff]
    rintro ⟨hm, _⟩
    have := hm k hk
    rw [hio] at this
    exact absurd this (by decide)
  · rw [if_neg ht]
    have hm : ∀ k, k < n → regionOf s.params (a + k) = .main := fun k hk =>
      Region.ne_io.1 (fun hio => ht (h.2 ⟨k, hk, hio⟩))
    split_ifs with hs
    · simp only [false_iff, not_and]
      intro _
      omega
    · simp only [true_iff]
      exact ⟨hm, by omega⟩

/-- No byte of the access has been fetched. -/
theorem State.textStop_eq_none {a n : Nat} : s.textStop a n = none ↔ ∀ b ∈ s.fetched, ¬ (a ≤ b ∧ b < a + n) := by
  unfold State.textStop
  split_ifs with h
  · simp only [false_iff]
    intro hn
    obtain ⟨b, hb, hc⟩ := List.any_eq_true.1 h
    exact hn b hb (of_decide_eq_true hc)
  · simp only [true_iff]
    intro b hb hc
    exact h (List.any_eq_true.2 ⟨b, hb, decide_eq_true hc⟩)

theorem State.alignStop_eq_none {a n : Nat} : s.alignStop a n = none ↔ s.params.misaligned = .decompose ∨ a % n = 0 := by
  unfold State.alignStop
  have h := aligned_iff (a := a) (n := n)
  cases hm : s.params.misaligned <;> simp_all [aligned]

theorem atomicStop_eq_none {a n : Nat} : atomicStop a n = none ↔ a % n = 0 := by
  simp [atomicStop, aligned]

/-! ### Computation, control, CSRs -/

theorem State.targetStop_eq_none {w : Word} : s.targetStop w = none ↔ s.params.ext.c = true ∨ w.toNat % 4 = 0 := by
  unfold State.targetStop
  cases s.params.ext.c <;> simp

/-- A jump that goes on links and goes to its target, which is aligned. -/
theorem State.jump_next {rd : Reg} {target : Word} (h : s.jump rd target i = .next t) :
    (s.params.ext.c = true ∨ target.toNat % 4 = 0) ∧ t = (s.writeX rd s.nextPc).retireTo i target := by
  obtain ⟨h1, h2⟩ := orStop_eq_next.1 h
  exact ⟨State.targetStop_eq_none.1 h1, (Host.Outcome.next.inj h2).symm⟩

/-- A branch that goes on: taken, to an aligned target, or not taken. -/
theorem State.branch_next {taken : Bool} {target : Word} (h : s.branch taken target i = .next t) :
    (taken = true ∧ (s.params.ext.c = true ∨ target.toNat % 4 = 0) ∧ t = s.retireTo i target) ∨
    (taken = false ∧ t = s.retire i) := by
  unfold State.branch at h
  split_ifs at h with hb
  · obtain ⟨h1, h2⟩ := orStop_eq_next.1 h
    exact .inl ⟨hb, State.targetStop_eq_none.1 h1, (Host.Outcome.next.inj h2).symm⟩
  · exact .inr ⟨by simpa using hb, (Host.Outcome.next.inj h).symm⟩

/-- A CSR instruction that goes on: the CSR is held, its old value goes to rd, a new one is written or not. -/
theorem State.csrOp_next {rd : Reg} {csr : BitVec 12} {new : Word → Option Word} (h : s.csrOp rd csr new i = .next t) :
    ∃ old, s.readCsr csr = some old ∧
      ((new old = none ∧ t = (s.writeX rd old).retire i) ∨
        ∃ v, new old = some v ∧ t = ((s.writeCsr csr v).writeX rd old).retire i) := by
  unfold State.csrOp at h
  split at h
  · cases h
  · rename_i old ho
    refine ⟨old, ho, ?_⟩
    split at h
    · rename_i hn
      exact .inl ⟨hn, (Host.Outcome.next.inj h).symm⟩
    · rename_i v hv
      exact .inr ⟨v, hv, (Host.Outcome.next.inj h).symm⟩

/-- An instruction with an rm field goes on only with a mode that is not reserved. -/
theorem State.withRounding_next {rm : BitVec 3} {k : RoundMode → Result} (h : s.withRounding rm k = .next t) :
    ∃ r, s.rounding rm = some r ∧ k r = .next t := by
  unfold State.withRounding at h
  split at h
  · rename_i r hr
    exact ⟨r, hr, h⟩
  · cases h

theorem State.withRounding_of_some {rm : BitVec 3} {k : RoundMode → Result} {r : RoundMode} (h : s.rounding rm = some r) :
    s.withRounding rm k = k r := by
  simp [State.withRounding, h]

theorem State.withRounding_of_none {rm : BitVec 3} {k : RoundMode → Result} (h : s.rounding rm = none) :
    s.withRounding rm k = .fault .reservedRounding := by
  simp [State.withRounding, h]

/-! ### Components of an access -/

/-- The components cut the bytes from `start` on into adjacent pieces, none empty. -/
theorem components_cover (mask : BitVec 7) (rest next start : Nat) (h : start < next) :
    (components mask rest next start).Pairwise (fun p q => p.1 + p.2 ≤ q.1) ∧
    (∀ p ∈ components mask rest next start, start ≤ p.1 ∧ 0 < p.2 ∧ p.1 + p.2 ≤ next + rest) ∧
    ∀ x, start ≤ x → x < next + rest → ∃ p ∈ components mask rest next start, p.1 ≤ x ∧ x < p.1 + p.2 := by
  induction rest generalizing next start with
  | zero =>
    simp only [components]
    refine ⟨by simp, ?_, ?_⟩
    · intro p hp
      obtain rfl := List.mem_singleton.1 hp
      simp only
      omega
    · intro x h1 h2
      exact ⟨_, List.mem_singleton.2 rfl, by simp only; omega⟩
  | succ rest ih =>
    simp only [components]
    split_ifs
    · obtain ⟨i1, i2, i3⟩ := ih (next + 1) next (by omega)
      refine ⟨List.pairwise_cons.2 ⟨fun q hq => ?_, i1⟩, ?_, ?_⟩
      · have := i2 q hq
        simp only
        omega
      · intro p hp
        rcases List.mem_cons.1 hp with rfl | hp
        · simp only
          omega
        · have := i2 p hp
          omega
      · intro x h1 h2
        by_cases hx : x < next
        · exact ⟨_, List.mem_cons_self .., by simp only; omega⟩
        · obtain ⟨p, hp, hq⟩ := i3 x (by omega) (by omega)
          exact ⟨p, List.mem_cons_of_mem _ hp, hq⟩
    · obtain ⟨i1, i2, i3⟩ := ih (next + 1) start (by omega)
      refine ⟨i1, fun p hp => ?_, fun x h1 h2 => i3 x h1 (by omega)⟩
      have := i2 p hp
      omega

/-- The components of an access of n bytes: adjacent pieces of it, none empty, that cover it. -/
theorem State.parts_cover (s : State) (a n : Nat) (d : Bool) (hn : 0 < n) :
    (s.parts a n d).1.Pairwise (fun p q => p.1 + p.2 ≤ q.1) ∧
    (∀ p ∈ (s.parts a n d).1, 0 < p.2 ∧ p.1 + p.2 ≤ n) ∧
    ∀ x, x < n → ∃ p ∈ (s.parts a n d).1, p.1 ≤ x ∧ x < p.1 + p.2 := by
  unfold State.parts
  split_ifs
  · obtain ⟨h1, h2, h3⟩ := components_cover s.draws.split.1 (n - 1) 1 0 (by omega)
    refine ⟨h1, fun p hp => ?_, fun x hx => h3 x (by omega) (by omega)⟩
    have := h2 p hp
    omega
  · refine ⟨by simp, fun p hp => ?_, fun x hx => ⟨(0, n), by simp, by simp only; omega⟩⟩
    obtain rfl := List.mem_singleton.1 hp
    simp only
    omega

/-- An aligned access is one operation, but for FLD and FSD with XLEN < 64. -/
theorem State.parts_aligned {a n : Nat} {d : Bool} (h : a % n = 0) (hd : ¬ (d = true ∧ s.xlen = .rv32)) :
    s.parts a n d = ([(0, n)], s.draws) := by
  unfold State.parts State.mayDecompose
  rw [if_neg]
  cases d <;> simp_all [aligned]

/-! ### Loads, stores and atomics -/

/-- What lets a load go on. -/
theorem State.loadStop_eq_none {a n : Nat} : s.loadStop a n = none ↔
    (s.params.misaligned = .decompose ∨ a % n = 0) ∧
    (∀ k, k < n → regionOf s.params (a + k) = .main) ∧ a + n ≤ s.xlen.size := by
  rw [State.loadStop, firstStop_eq_none, State.alignStop_eq_none, State.regionStop_eq_none]

/-- What lets a store go on. -/
theorem State.storeStop_eq_none {a n : Nat} : s.storeStop a n = none ↔
    (s.params.misaligned = .decompose ∨ a % n = 0) ∧
    ((∀ k, k < n → regionOf s.params (a + k) = .main) ∧ a + n ≤ s.xlen.size) ∧
    ∀ b ∈ s.fetched, ¬ (a ≤ b ∧ b < a + n) := by
  rw [State.storeStop, firstStop_eq_none, firstStop_eq_none, State.alignStop_eq_none, State.regionStop_eq_none,
    State.textStop_eq_none]

/-- What lets an LR go on. -/
theorem State.lrStop_eq_none {a n : Nat} : s.lrStop a n = none ↔
    a % n = 0 ∧ (∀ k, k < n → regionOf s.params (a + k) = .main) ∧ a + n ≤ s.xlen.size := by
  rw [State.lrStop, firstStop_eq_none, atomicStop_eq_none, State.regionStop_eq_none]

/-- What lets an AMO go on. -/
theorem State.amoStop_eq_none {a n : Nat} : s.amoStop a n = none ↔
    a % n = 0 ∧ ((∀ k, k < n → regionOf s.params (a + k) = .main) ∧ a + n ≤ s.xlen.size) ∧
    ∀ b ∈ s.fetched, ¬ (a ≤ b ∧ b < a + n) := by
  rw [State.amoStop, firstStop_eq_none, firstStop_eq_none, atomicStop_eq_none, State.regionStop_eq_none,
    State.textStop_eq_none]

/-- An integer load that goes on. -/
theorem State.loadX_next {rd rs1 : Reg} {imm : BitVec 12} {n : Nat} {ext : Word → Word}
    (h : s.loadX rd rs1 imm n ext i = .next t) :
    s.loadStop (s.effAddr rs1 imm) n = none ∧
    t = ((s.afterRead (s.effAddr rs1 imm) n false Annot.none).writeX rd
      (ext (wordOf (s.memRead (s.effAddr rs1 imm) n)))).retire i := by
  obtain ⟨h1, h2⟩ := orStop_eq_next.1 h
  exact ⟨h1, (Host.Outcome.next.inj h2).symm⟩

/-- An integer store that goes on. -/
theorem State.storeX_next {rs2 rs1 : Reg} {imm : BitVec 12} {n : Nat} (h : s.storeX rs2 rs1 imm n i = .next t) :
    s.storeStop (s.effAddr rs1 imm) n = none ∧
    t = (s.memWrite (s.effAddr rs1 imm) (bytesOf n (s.readX rs2)) false Annot.none none).retire i := by
  obtain ⟨h1, h2⟩ := orStop_eq_next.1 h
  exact ⟨h1, (Host.Outcome.next.inj h2).symm⟩

/-- A floating-point load that goes on. -/
theorem State.loadF_next {rd rs1 : Reg} {imm : BitVec 12} {n : Nat} {box : Word → Word} {d : Bool}
    (h : s.loadF rd rs1 imm n box d i = .next t) :
    s.loadStop (s.effAddr rs1 imm) n = none ∧
    t = ((s.afterRead (s.effAddr rs1 imm) n d Annot.none).writeF rd
      (box (wordOf (s.memRead (s.effAddr rs1 imm) n)))).retire i := by
  obtain ⟨h1, h2⟩ := orStop_eq_next.1 h
  exact ⟨h1, (Host.Outcome.next.inj h2).symm⟩

/-- A floating-point store that goes on. -/
theorem State.storeF_next {rs2 rs1 : Reg} {imm : BitVec 12} {n : Nat} {d : Bool}
    (h : s.storeF rs2 rs1 imm n d i = .next t) :
    s.storeStop (s.effAddr rs1 imm) n = none ∧
    t = (s.memWrite (s.effAddr rs1 imm) (bytesOf n (s.readF rs2)) d Annot.none none).retire i := by
  obtain ⟨h1, h2⟩ := orStop_eq_next.1 h
  exact ⟨h1, (Host.Outcome.next.inj h2).symm⟩

/-- An LR that goes on. -/
theorem State.loadReserved_next {rd rs1 : Reg} {n : Nat} {annot : Annot}
    (h : s.loadReserved rd rs1 n annot i = .next t) :
    s.lrStop (s.atomicAddr rs1) n = none ∧
    t = (((s.afterRead (s.atomicAddr rs1) n false annot).setLr (s.atomicAddr rs1) n).writeX rd
      (signExtendBytes s.xlen n (wordOf (s.memRead (s.atomicAddr rs1) n)))).retire i := by
  obtain ⟨h1, h2⟩ := orStop_eq_next.1 h
  exact ⟨h1, (Host.Outcome.next.inj h2).symm⟩

/-- An SC that goes on: it is aligned, and it succeeds with its store allowed, or fails. -/
theorem State.storeConditional_next {rd rs2 rs1 : Reg} {n : Nat} {annot : Annot}
    (h : s.storeConditional rd rs2 rs1 n annot i = .next t) :
    s.atomicAddr rs1 % n = 0 ∧
    ((s.scSucceeds (s.atomicAddr rs1) n = true ∧
        ((∀ k, k < n → regionOf s.params (s.atomicAddr rs1 + k) = .main) ∧ s.atomicAddr rs1 + n ≤ s.xlen.size) ∧
        (∀ b ∈ s.fetched, ¬ (s.atomicAddr rs1 ≤ b ∧ b < s.atomicAddr rs1 + n)) ∧
        t = s.scSuccess rd rs2 rs1 n annot i) ∨
      (s.scSucceeds (s.atomicAddr rs1) n = false ∧ t = s.scFailure rd i)) := by
  obtain ⟨h1, h2⟩ := orStop_eq_next.1 h
  refine ⟨atomicStop_eq_none.1 h1, ?_⟩
  split_ifs at h2 with hs
  · obtain ⟨h3, h4⟩ := orStop_eq_next.1 h2
    rw [firstStop_eq_none, State.regionStop_eq_none, State.textStop_eq_none] at h3
    exact .inl ⟨hs, h3.1, h3.2, (Host.Outcome.next.inj h4).symm⟩
  · exact .inr ⟨by simpa using hs, (Host.Outcome.next.inj h2).symm⟩

/-- An AMO that goes on. -/
theorem State.amoOp_next {rd rs1 : Reg} {n : Nat} {g : Word → Word} {annot : Annot}
    (h : s.amoOp rd rs1 n g annot i = .next t) :
    s.amoStop (s.atomicAddr rs1) n = none ∧
    t = ((s.memAmo (s.atomicAddr rs1) n g annot).writeX rd
      (signExtendBytes s.xlen n (wordOf (s.memRead (s.atomicAddr rs1) n)))).retire i := by
  obtain ⟨h1, h2⟩ := orStop_eq_next.1 h
  exact ⟨h1, (Host.Outcome.next.inj h2).symm⟩

/-! ### Turns -/

/-- A turn that goes on: an ended hart, a hart past its program, or the instruction fetched. -/
theorem State.turn_next (h : s.turn = .next t) :
    (s.hart.ended = true ∧ t = s) ∨
    (s.hart.ended = false ∧ s.atEnd = true ∧ t = s.endStream) ∨
    (s.hart.ended = false ∧ s.atEnd = false ∧ ∃ i, s.fetch = .ok i ∧ exec i s.noteFetch = .next t) := by
  unfold State.turn at h
  by_cases h1 : s.hart.ended = true
  · rw [if_pos h1] at h
    exact .inl ⟨h1, (Host.Outcome.next.inj h).symm⟩
  · rw [if_neg h1] at h
    have h1' : s.hart.ended = false := by simpa using h1
    by_cases h2 : s.atEnd = true
    · rw [if_pos h2] at h
      exact .inr (.inl ⟨h1', h2, (Host.Outcome.next.inj h).symm⟩)
    · rw [if_neg h2] at h
      refine .inr (.inr ⟨h1', by simpa using h2, ?_⟩)
      split at h
      · exact absurd h (Stop.result_ne_next _ _)
      · rename_i i hi
        exact ⟨i, hi, h⟩

/-- A step that goes on is a turn that goes on, after which the next hart has its turn. -/
theorem step_next (h : step s = .next t) : ∃ u, s.turn = .next u ∧ t = u.yield := by
  unfold step at h
  cases hu : s.turn with
  | next u =>
    rw [hu] at h
    exact ⟨u, rfl, (Host.Outcome.next.inj h).symm⟩
  | fault f => rw [hu] at h; cases h
  | refused q => rw [hu] at h; cases h

/-- An instruction is fetched only from text no store has written, and it is the one the bytes decode to. -/
theorem State.fetch_ok (h : s.fetch = .ok i) :
    s.written s.pc.toNat 4 = false ∧ ∃ rest, decodeBytes s.xlen s.params.ext (s.textBytes s.pc.toNat 4) = .ok (i, rest) := by
  unfold State.fetch at h
  split_ifs at h with hw
  refine ⟨by simpa using hw, ?_⟩
  split at h
  · rename_i r hr
    cases h
    exact ⟨r.2, hr⟩
  · cases h

/-- Passing the turn leaves all but the order of the harts. -/
theorem State.yield_fields (s : State) :
    s.yield.params = s.params ∧ s.yield.mem = s.mem ∧ s.yield.history = s.history ∧ s.yield.fetched = s.fetched ∧
    s.yield.draws = s.draws ∧ s.yield.harts = s.others ++ [s.hart] := by
  unfold State.yield State.harts
  split
  · rename_i h
    simp [h]
  · rename_i h hs hh
    simp [hh]

end Sys2Proof.Machine
end

