-- ==== Sys2Proof/Laws/Exec.lean ====
section
/-! SUPPORT. What every instruction leaves as it was, and what it appends to its hart's stream, when it goes on. -/

namespace Sys2Proof.Machine

/-- Nothing outside the hart but memory, the history and the draws has changed; the instruction is the newest of the stream and
the dependency walk has taken its step (20_memory.md R78). -/
def Kept (i : Instr) (s t : State) : Prop :=
  t.params = s.params ∧ t.fetched = s.fetched ∧ t.others = s.others ∧
  t.hart.id = s.hart.id ∧ t.hart.entry = s.hart.entry ∧ t.hart.len = s.hart.len ∧ t.hart.pos = s.hart.pos + 1 ∧
  ∃ ok, t.hart.stream = { instr := i, scOk := ok } :: s.hart.stream ∧
    ({ deps := t.hart.deps, ctrl := t.hart.ctrl } : DepState) =
      ({ deps := s.hart.deps, ctrl := s.hart.ctrl } : DepState).walk (Instr.listing ok i) s.hart.pos

variable {s t u : State} {i : Instr}

/-- Retiring the instruction after updates that leave the stream alone. -/
theorem kept_retireTo (h1 : u.params = s.params) (h2 : u.fetched = s.fetched) (h3 : u.others = s.others)
    (h4 : u.hart.id = s.hart.id) (h5 : u.hart.entry = s.hart.entry) (h6 : u.hart.len = s.hart.len)
    (h7 : u.hart.pos = s.hart.pos) (h8 : u.hart.stream = s.hart.stream) (h9 : u.hart.deps = s.hart.deps)
    (h10 : u.hart.ctrl = s.hart.ctrl) (ok : Bool) (pc : Word) :
    Kept i s { u with hart := u.hart.advance i ok pc } := by
  refine ⟨h1, h2, h3, h4, h5, h6, ?_, ok, ?_, ?_⟩ <;> simp [Hart.advance, h7, h8, h9, h10]

theorem kept_setX {rd : Reg} {v : Word} (h : s.setX rd v i = .next t) : Kept i s t := by
  cases h
  apply kept_retireTo <;> simp

theorem kept_jump {rd : Reg} {w : Word} (h : s.jump rd w i = .next t) : Kept i s t := by
  obtain ⟨-, rfl⟩ := State.jump_next h
  apply kept_retireTo <;> simp

theorem kept_branch {b : Bool} {w : Word} (h : s.branch b w i = .next t) : Kept i s t := by
  obtain ⟨-, -, rfl⟩ | ⟨-, rfl⟩ := State.branch_next h <;> apply kept_retireTo <;> rfl

theorem kept_csrOp {rd : Reg} {c : BitVec 12} {new : Word → Option Word} (h : s.csrOp rd c new i = .next t) :
    Kept i s t := by
  obtain ⟨old, -, ⟨-, rfl⟩ | ⟨v, -, rfl⟩⟩ := State.csrOp_next h <;> apply kept_retireTo <;> simp

theorem kept_loadX {rd rs1 : Reg} {imm : BitVec 12} {n : Nat} {ext : Word → Word}
    (h : s.loadX rd rs1 imm n ext i = .next t) : Kept i s t := by
  obtain ⟨-, rfl⟩ := State.loadX_next h
  apply kept_retireTo <;> simp

theorem kept_storeX {rs2 rs1 : Reg} {imm : BitVec 12} {n : Nat} (h : s.storeX rs2 rs1 imm n i = .next t) :
    Kept i s t := by
  obtain ⟨-, rfl⟩ := State.storeX_next h
  apply kept_retireTo <;> simp

theorem kept_loadF {rd rs1 : Reg} {imm : BitVec 12} {n : Nat} {box : Word → Word} {d : Bool}
    (h : s.loadF rd rs1 imm n box d i = .next t) : Kept i s t := by
  obtain ⟨-, rfl⟩ := State.loadF_next h
  apply kept_retireTo <;> simp

theorem kept_storeF {rs2 rs1 : Reg} {imm : BitVec 12} {n : Nat} {d : Bool}
    (h : s.storeF rs2 rs1 imm n d i = .next t) : Kept i s t := by
  obtain ⟨-, rfl⟩ := State.storeF_next h
  apply kept_retireTo <;> simp

theorem kept_loadReserved {rd rs1 : Reg} {n : Nat} {an : Annot} (h : s.loadReserved rd rs1 n an i = .next t) :
    Kept i s t := by
  obtain ⟨-, rfl⟩ := State.loadReserved_next h
  apply kept_retireTo <;> simp

theorem kept_storeConditional {rd rs2 rs1 : Reg} {n : Nat} {an : Annot}
    (h : s.storeConditional rd rs2 rs1 n an i = .next t) : Kept i s t := by
  obtain ⟨-, ⟨-, -, -, rfl⟩ | ⟨-, rfl⟩⟩ := State.storeConditional_next h <;> apply kept_retireTo <;> simp

theorem kept_amoOp {rd rs1 : Reg} {n : Nat} {g : Word → Word} {an : Annot} (h : s.amoOp rd rs1 n g an i = .next t) :
    Kept i s t := by
  obtain ⟨-, rfl⟩ := State.amoOp_next h
  apply kept_retireTo <;> simp

theorem kept_setS {rd : Reg} {c : FlagMask} {r : FpResult} (h : s.setS rd c r i = .next t) : Kept i s t := by
  cases h
  apply kept_retireTo <;> simp

theorem kept_setD {rd : Reg} {c : FlagMask} {r : FpResult} (h : s.setD rd c r i = .next t) : Kept i s t := by
  cases h
  apply kept_retireTo <;> simp

theorem kept_setXF {rd : Reg} {c : FlagMask} {v : Word} {fl : FlagBits} (h : s.setXF rd c v fl i = .next t) :
    Kept i s t := by
  cases h
  apply kept_retireTo <;> simp

theorem kept_withRounding {rm : BitVec 3} {k : RoundMode → Result} (hk : ∀ r, k r = .next t → Kept i s t)
    (h : s.withRounding rm k = .next t) : Kept i s t := by
  obtain ⟨r, -, hr⟩ := State.withRounding_next h
  exact hk r hr

/-- Every instruction that goes on. -/
theorem exec_kept (h : exec i s = .next t) : Kept i s t := by
  cases i
  case lui => simp only [exec, execLui] at h; exact kept_setX h
  case auipc => simp only [exec, execAuipc] at h; exact kept_setX h
  case jal => simp only [exec, execJal] at h; exact kept_jump h
  case jalr => simp only [exec, execJalr] at h; exact kept_jump h
  case beq => simp only [exec, execBeq] at h; exact kept_branch h
  case bne => simp only [exec, execBne] at h; exact kept_branch h
  case blt => simp only [exec, execBlt] at h; exact kept_branch h
  case bge => simp only [exec, execBge] at h; exact kept_branch h
  case bltu => simp only [exec, execBltu] at h; exact kept_branch h
  case bgeu => simp only [exec, execBgeu] at h; exact kept_branch h
  case lb => simp only [exec, execLb] at h; exact kept_loadX h
  case lh => simp only [exec, execLh] at h; exact kept_loadX h
  case lw => simp only [exec, execLw] at h; exact kept_loadX h
  case lbu => simp only [exec, execLbu] at h; exact kept_loadX h
  case lhu => simp only [exec, execLhu] at h; exact kept_loadX h
  case sb => simp only [exec, execSb] at h; exact kept_storeX h
  case sh => simp only [exec, execSh] at h; exact kept_storeX h
  case sw => simp only [exec, execSw] at h; exact kept_storeX h
  case addi => simp only [exec, execAddi] at h; exact kept_setX h
  case slti => simp only [exec, execSlti] at h; exact kept_setX h
  case sltiu => simp only [exec, execSltiu] at h; exact kept_setX h
  case xori => simp only [exec, execXori] at h; exact kept_setX h
  case ori => simp only [exec, execOri] at h; exact kept_setX h
  case andi => simp only [exec, execAndi] at h; exact kept_setX h
  case slli32 => simp only [exec, execSlli32] at h; exact kept_setX h
  case srli32 => simp only [exec, execSrli32] at h; exact kept_setX h
  case srai32 => simp only [exec, execSrai32] at h; exact kept_setX h
  case add => simp only [exec, execAdd] at h; exact kept_setX h
  case sub => simp only [exec, execSub] at h; exact kept_setX h
  case sll => simp only [exec, execSll] at h; exact kept_setX h
  case slt => simp only [exec, execSlt] at h; exact kept_setX h
  case sltu => simp only [exec, execSltu] at h; exact kept_setX h
  case xor => simp only [exec, execXor] at h; exact kept_setX h
  case srl => simp only [exec, execSrl] at h; exact kept_setX h
  case sra => simp only [exec, execSra] at h; exact kept_setX h
  case or => simp only [exec, execOr] at h; exact kept_setX h
  case and => simp only [exec, execAnd] at h; exact kept_setX h
  case fence => cases h; apply kept_retireTo <;> rfl
  case fenceI => cases h; apply kept_retireTo <;> rfl
  case ecall => cases h; exact kept_retireTo (u := s) rfl rfl rfl rfl rfl rfl rfl rfl rfl rfl false s.hart.pc
  case ebreak => cases h; exact kept_retireTo (u := s) rfl rfl rfl rfl rfl rfl rfl rfl rfl rfl false s.hart.pc
  case csrrw => simp only [exec, execCsrrw] at h; exact kept_csrOp h
  case csrrs => simp only [exec, execCsrrs] at h; exact kept_csrOp h
  case csrrc => simp only [exec, execCsrrc] at h; exact kept_csrOp h
  case csrrwi => simp only [exec, execCsrrwi] at h; exact kept_csrOp h
  case csrrsi => simp only [exec, execCsrrsi] at h; exact kept_csrOp h
  case csrrci => simp only [exec, execCsrrci] at h; exact kept_csrOp h
  case lwu => simp only [exec, execLwu] at h; exact kept_loadX h
  case ld => simp only [exec, execLd] at h; exact kept_loadX h
  case sd => simp only [exec, execSd] at h; exact kept_storeX h
  case slli => simp only [exec, execSlli] at h; exact kept_setX h
  case srli => simp only [exec, execSrli] at h; exact kept_setX h
  case srai => simp only [exec, execSrai] at h; exact kept_setX h
  case addiw => simp only [exec, execAddiw] at h; exact kept_setX h
  case slliw => simp only [exec, execSlliw] at h; exact kept_setX h
  case srliw => simp only [exec, execSrliw] at h; exact kept_setX h
  case sraiw => simp only [exec, execSraiw] at h; exact kept_setX h
  case addw => simp only [exec, execAddw] at h; exact kept_setX h
  case subw => simp only [exec, execSubw] at h; exact kept_setX h
  case sllw => simp only [exec, execSllw] at h; exact kept_setX h
  case srlw => simp only [exec, execSrlw] at h; exact kept_setX h
  case sraw => simp only [exec, execSraw] at h; exact kept_setX h
  case mul => simp only [exec, execMul] at h; exact kept_setX h
  case mulh => simp only [exec, execMulh] at h; exact kept_setX h
  case mulhsu => simp only [exec, execMulhsu] at h; exact kept_setX h
  case mulhu => simp only [exec, execMulhu] at h; exact kept_setX h
  case div => simp only [exec, execDiv] at h; exact kept_setX h
  case divu => simp only [exec, execDivu] at h; exact kept_setX h
  case rem => simp only [exec, execRem] at h; exact kept_setX h
  case remu => simp only [exec, execRemu] at h; exact kept_setX h
  case mulw => simp only [exec, execMulw] at h; exact kept_setX h
  case divw => simp only [exec, execDivw] at h; exact kept_setX h
  case divuw => simp only [exec, execDivuw] at h; exact kept_setX h
  case remw => simp only [exec, execRemw] at h; exact kept_setX h
  case remuw => simp only [exec, execRemuw] at h; exact kept_setX h
  case lrW => simp only [exec, execLrW] at h; exact kept_loadReserved h
  case scW => simp only [exec, execScW] at h; exact kept_storeConditional h
  case amoswapW => simp only [exec, execAmoswapW] at h; exact kept_amoOp h
  case amoaddW => simp only [exec, execAmoaddW] at h; exact kept_amoOp h
  case amoxorW => simp only [exec, execAmoxorW] at h; exact kept_amoOp h
  case amoandW => simp only [exec, execAmoandW] at h; exact kept_amoOp h
  case amoorW => simp only [exec, execAmoorW] at h; exact kept_amoOp h
  case amominW => simp only [exec, execAmominW] at h; exact kept_amoOp h
  case amomaxW => simp only [exec, execAmomaxW] at h; exact kept_amoOp h
  case amominuW => simp only [exec, execAmominuW] at h; exact kept_amoOp h
  case amomaxuW => simp only [exec, execAmomaxuW] at h; exact kept_amoOp h
  case lrD => simp only [exec, execLrD] at h; exact kept_loadReserved h
  case scD => simp only [exec, execScD] at h; exact kept_storeConditional h
  case amoswapD => simp only [exec, execAmoswapD] at h; exact kept_amoOp h
  case amoaddD => simp only [exec, execAmoaddD] at h; exact kept_amoOp h
  case amoxorD => simp only [exec, execAmoxorD] at h; exact kept_amoOp h
  case amoandD => simp only [exec, execAmoandD] at h; exact kept_amoOp h
  case amoorD => simp only [exec, execAmoorD] at h; exact kept_amoOp h
  case amominD => simp only [exec, execAmominD] at h; exact kept_amoOp h
  case amomaxD => simp only [exec, execAmomaxD] at h; exact kept_amoOp h
  case amominuD => simp only [exec, execAmominuD] at h; exact kept_amoOp h
  case amomaxuD => simp only [exec, execAmomaxuD] at h; exact kept_amoOp h
  case flw => simp only [exec, execFlw] at h; exact kept_loadF h
  case fsw => simp only [exec, execFsw] at h; exact kept_storeF h
  case fmaddS => simp only [exec, execFmaddS] at h; exact kept_withRounding (fun _ hr => kept_setS hr) h
  case fmsubS => simp only [exec, execFmsubS] at h; exact kept_withRounding (fun _ hr => kept_setS hr) h
  case fnmsubS => simp only [exec, execFnmsubS] at h; exact kept_withRounding (fun _ hr => kept_setS hr) h
  case fnmaddS => simp only [exec, execFnmaddS] at h; exact kept_withRounding (fun _ hr => kept_setS hr) h
  case faddS => simp only [exec, execFaddS] at h; exact kept_withRounding (fun _ hr => kept_setS hr) h
  case fsubS => simp only [exec, execFsubS] at h; exact kept_withRounding (fun _ hr => kept_setS hr) h
  case fmulS => simp only [exec, execFmulS] at h; exact kept_withRounding (fun _ hr => kept_setS hr) h
  case fdivS => simp only [exec, execFdivS] at h; exact kept_withRounding (fun _ hr => kept_setS hr) h
  case fsqrtS => simp only [exec, execFsqrtS] at h; exact kept_withRounding (fun _ hr => kept_setS hr) h
  case fsgnjS => simp only [exec, execFsgnjS] at h; exact kept_setS h
  case fsgnjnS => simp only [exec, execFsgnjnS] at h; exact kept_setS h
  case fsgnjxS => simp only [exec, execFsgnjxS] at h; exact kept_setS h
  case fminS => simp only [exec, execFminS] at h; exact kept_setS h
  case fmaxS => simp only [exec, execFmaxS] at h; exact kept_setS h
  case fcvtWS => simp only [exec, execFcvtWS] at h; exact kept_withRounding (fun _ hr => kept_setXF hr) h
  case fcvtWUS => simp only [exec, execFcvtWUS] at h; exact kept_withRounding (fun _ hr => kept_setXF hr) h
  case fmvXW => simp only [exec, execFmvXW] at h; exact kept_setX h
  case feqS => simp only [exec, execFeqS] at h; exact kept_setXF h
  case fltS => simp only [exec, execFltS] at h; exact kept_setXF h
  case fleS => simp only [exec, execFleS] at h; exact kept_setXF h
  case fclassS => simp only [exec, execFclassS] at h; exact kept_setX h
  case fcvtSW => simp only [exec, execFcvtSW] at h; exact kept_withRounding (fun _ hr => kept_setS hr) h
  case fcvtSWU => simp only [exec, execFcvtSWU] at h; exact kept_withRounding (fun _ hr => kept_setS hr) h
  case fmvWX => cases h; apply kept_retireTo <;> simp
  case fcvtLS => simp only [exec, execFcvtLS] at h; exact kept_withRounding (fun _ hr => kept_setXF hr) h
  case fcvtLUS => simp only [exec, execFcvtLUS] at h; exact kept_withRounding (fun _ hr => kept_setXF hr) h
  case fcvtSL => simp only [exec, execFcvtSL] at h; exact kept_withRounding (fun _ hr => kept_setS hr) h
  case fcvtSLU => simp only [exec, execFcvtSLU] at h; exact kept_withRounding (fun _ hr => kept_setS hr) h
  case fld => simp only [exec, execFld] at h; exact kept_loadF h
  case fsd => simp only [exec, execFsd] at h; exact kept_storeF h
  case fmaddD => simp only [exec, execFmaddD] at h; exact kept_withRounding (fun _ hr => kept_setD hr) h
  case fmsubD => simp only [exec, execFmsubD] at h; exact kept_withRounding (fun _ hr => kept_setD hr) h
  case fnmsubD => simp only [exec, execFnmsubD] at h; exact kept_withRounding (fun _ hr => kept_setD hr) h
  case fnmaddD => simp only [exec, execFnmaddD] at h; exact kept_withRounding (fun _ hr => kept_setD hr) h
  case faddD => simp only [exec, execFaddD] at h; exact kept_withRounding (fun _ hr => kept_setD hr) h
  case fsubD => simp only [exec, execFsubD] at h; exact kept_withRounding (fun _ hr => kept_setD hr) h
  case fmulD => simp only [exec, execFmulD] at h; exact kept_withRounding (fun _ hr => kept_setD hr) h
  case fdivD => simp only [exec, execFdivD] at h; exact kept_withRounding (fun _ hr => kept_setD hr) h
  case fsqrtD => simp only [exec, execFsqrtD] at h; exact kept_withRounding (fun _ hr => kept_setD hr) h
  case fsgnjD => simp only [exec, execFsgnjD] at h; exact kept_setD h
  case fsgnjnD => simp only [exec, execFsgnjnD] at h; exact kept_setD h
  case fsgnjxD => simp only [exec, execFsgnjxD] at h; exact kept_setD h
  case fminD => simp only [exec, execFminD] at h; exact kept_setD h
  case fmaxD => simp only [exec, execFmaxD] at h; exact kept_setD h
  case fcvtSD => simp only [exec, execFcvtSD] at h; exact kept_withRounding (fun _ hr => kept_setS hr) h
  case fcvtDS => simp only [exec, execFcvtDS] at h; exact kept_withRounding (fun _ hr => kept_setD hr) h
  case feqD => simp only [exec, execFeqD] at h; exact kept_setXF h
  case fltD => simp only [exec, execFltD] at h; exact kept_setXF h
  case fleD => simp only [exec, execFleD] at h; exact kept_setXF h
  case fclassD => simp only [exec, execFclassD] at h; exact kept_setX h
  case fcvtWD => simp only [exec, execFcvtWD] at h; exact kept_withRounding (fun _ hr => kept_setXF hr) h
  case fcvtWUD => simp only [exec, execFcvtWUD] at h; exact kept_withRounding (fun _ hr => kept_setXF hr) h
  case fcvtDW => simp only [exec, execFcvtDW] at h; exact kept_withRounding (fun _ hr => kept_setD hr) h
  case fcvtDWU => simp only [exec, execFcvtDWU] at h; exact kept_withRounding (fun _ hr => kept_setD hr) h
  case fcvtLD => simp only [exec, execFcvtLD] at h; exact kept_withRounding (fun _ hr => kept_setXF hr) h
  case fcvtLUD => simp only [exec, execFcvtLUD] at h; exact kept_withRounding (fun _ hr => kept_setXF hr) h
  case fmvXD => simp only [exec, execFmvXD] at h; exact kept_setX h
  case fcvtDL => simp only [exec, execFcvtDL] at h; exact kept_withRounding (fun _ hr => kept_setD hr) h
  case fcvtDLU => simp only [exec, execFcvtDLU] at h; exact kept_withRounding (fun _ hr => kept_setD hr) h
  case fmvDX => cases h; apply kept_retireTo <;> simp

end Sys2Proof.Machine
end

