-- ==== Sys2Proof/Laws/Effect.lean ====
section
/-! SUPPORT. What every instruction that goes on does to memory, the history and the pairing state. -/

namespace Sys2Proof.Machine

/-- The operations of an access cut it into adjacent pieces, none empty, that cover it. -/
def Cut (n : Nat) (ps : List (Nat × Nat)) : Prop :=
  ps.Pairwise (fun p q => p.1 + p.2 ≤ q.1) ∧ (∀ p ∈ ps, 0 < p.2 ∧ p.1 + p.2 ≤ n) ∧
  ∀ x, x < n → ∃ p ∈ ps, p.1 ≤ x ∧ x < p.1 + p.2

/-- An access of at most eight bytes that is main memory within the address space. -/
def Within (s : State) (a n : Nat) : Prop :=
  0 < n ∧ n ≤ 8 ∧ (∀ k, k < n → regionOf s.params (a + k) = .main) ∧ a + n ≤ s.xlen.size

/-- No byte of the access has been fetched. -/
def Unfetched (s : State) (a n : Nat) : Prop := ∀ b ∈ s.fetched, ¬ (a ≤ b ∧ b < a + n)

/-- The newest instance of the stream gives rise to memory operations. -/
def Accessed (t : State) : Prop := ∃ n l, t.hart.stream = n :: l ∧ n.listing.memory = true

/-- No memory operation; a load; a store; or an operation that is both. No annotation is RCpc (20_memory.md R62). -/
inductive MemEffect (s t : State) : Prop where
  /-- none -/
  | quiet : t.mem = s.mem → t.history = s.history → MemEffect s t
  /-- a load -/
  | load (a n : Nat) (ps : List (Nat × Nat)) (an : Annot) : Within s a n → Cut n ps → an.acqRCpc = false →
      an.relRCpc = false → Accessed t → t.mem = s.mem →
      t.history = (ps.map (s.loadOp a (s.memRead a n) an)).reverse ++ s.history → MemEffect s t
  /-- a store -/
  | store (a n : Nat) (ps : List (Nat × Nat)) (bs : List Byte) (an : Annot) (sc : Option Nat) : Within s a n → Cut n ps →
      Unfetched s a n → bs.length = n → an.acqRCpc = false → an.relRCpc = false → Accessed t →
      t.mem = s.mem.write a bs → t.history = (ps.map (s.storeOp a bs an sc)).reverse ++ s.history → MemEffect s t
  /-- both -/
  | amo (a n : Nat) (bs : List Byte) (an : Annot) : Within s a n → Unfetched s a n → bs.length = n → an.acqRCpc = false →
      an.relRCpc = false → Accessed t → t.mem = s.mem.write a bs →
      t.history = { hart := s.hart.id, inst := s.hart.pos, isLoad := true, isStore := true, addr := a, len := n,
                    loaded := s.memRead a n, stored := bs, annot := an, region := .main, fromAMOorSC := true,
                    pairedWith := none } :: s.history → MemEffect s t

/-- What an instruction does to the pairing state: an LR becomes the one outstanding, an SC leaves none (20_memory.md R59). -/
def LrEffect (i : Instr) (s t : State) : Prop :=
  match (Instr.listing false i).role with
  | .none => t.hart.lr = s.hart.lr
  | .lr => t.hart.lr.map LrRecord.inst = some s.hart.pos
  | .sc => t.hart.lr = none

/-- Both. -/
def Effect (i : Instr) (s t : State) : Prop := MemEffect s t ∧ LrEffect i s t

variable {s t : State} {i : Instr}

theorem lrEffect_none (hr : (Instr.listing false i).role = .none) (h : t.hart.lr = s.hart.lr) : LrEffect i s t := by
  simp only [LrEffect, hr]
  exact h

theorem State.parts_cut (s : State) (a n : Nat) (d : Bool) (hn : 0 < n) : Cut n (s.parts a n d).1 := s.parts_cover a n d hn

theorem State.afterRead_history (s : State) (a n : Nat) (d : Bool) (an : Annot) :
    (s.afterRead a n d an).history =
      ((({ s with draws := (s.loaded a n).2 } : State).parts a n d).1.map (s.loadOp a (s.memRead a n) an)).reverse ++
        s.history := rfl

theorem State.memWrite_history (s : State) (a : Nat) (bs : List Byte) (d : Bool) (an : Annot) (sc : Option Nat) :
    (s.memWrite a bs d an sc).history = ((s.parts a bs.length d).1.map (s.storeOp a bs an sc)).reverse ++ s.history := rfl

theorem effect_setX {rd : Reg} {v : Word} (hr : (Instr.listing false i).role = .none) (h : s.setX rd v i = .next t) :
    Effect i s t := by
  cases h
  exact ⟨.quiet (by simp) (by simp), lrEffect_none hr (by simp)⟩

theorem effect_jump {rd : Reg} {w : Word} (hr : (Instr.listing false i).role = .none) (h : s.jump rd w i = .next t) :
    Effect i s t := by
  obtain ⟨-, rfl⟩ := State.jump_next h
  exact ⟨.quiet (by simp) (by simp), lrEffect_none hr (by simp)⟩

theorem effect_branch {b : Bool} {w : Word} (hr : (Instr.listing false i).role = .none) (h : s.branch b w i = .next t) :
    Effect i s t := by
  obtain ⟨-, -, rfl⟩ | ⟨-, rfl⟩ := State.branch_next h <;>
    exact ⟨.quiet (by simp) (by simp), lrEffect_none hr (by simp)⟩

theorem effect_csrOp {rd : Reg} {c : BitVec 12} {new : Word → Option Word}
    (hr : (Instr.listing false i).role = .none) (h : s.csrOp rd c new i = .next t) : Effect i s t := by
  obtain ⟨old, -, ⟨-, rfl⟩ | ⟨v, -, rfl⟩⟩ := State.csrOp_next h <;>
    exact ⟨.quiet (by simp) (by simp), lrEffect_none hr (by simp)⟩

theorem effect_setS {rd : Reg} {c : FlagMask} {r : FpResult} (hr : (Instr.listing false i).role = .none)
    (h : s.setS rd c r i = .next t) : Effect i s t := by
  cases h
  exact ⟨.quiet (by simp) (by simp), lrEffect_none hr (by simp)⟩

theorem effect_setD {rd : Reg} {c : FlagMask} {r : FpResult} (hr : (Instr.listing false i).role = .none)
    (h : s.setD rd c r i = .next t) : Effect i s t := by
  cases h
  exact ⟨.quiet (by simp) (by simp), lrEffect_none hr (by simp)⟩

theorem effect_setXF {rd : Reg} {c : FlagMask} {v : Word} {fl : FlagBits} (hr : (Instr.listing false i).role = .none)
    (h : s.setXF rd c v fl i = .next t) : Effect i s t := by
  cases h
  exact ⟨.quiet (by simp) (by simp), lrEffect_none hr (by simp)⟩

theorem effect_withRounding {rm : BitVec 3} {k : RoundMode → Result} (hk : ∀ r, k r = .next t → Effect i s t)
    (h : s.withRounding rm k = .next t) : Effect i s t := by
  obtain ⟨r, -, hr⟩ := State.withRounding_next h
  exact hk r hr

theorem effect_loadX {rd rs1 : Reg} {imm : BitVec 12} {n : Nat} {ext : Word → Word} (hn : 0 < n ∧ n ≤ 8)
    (hm : (Instr.listing false i).memory = true) (hr : (Instr.listing false i).role = .none)
    (h : s.loadX rd rs1 imm n ext i = .next t) : Effect i s t := by
  obtain ⟨h1, rfl⟩ := State.loadX_next h
  obtain ⟨-, h2⟩ := State.loadStop_eq_none.1 h1
  exact ⟨.load _ n _ Annot.none ⟨hn.1, hn.2, h2⟩ (State.parts_cut _ _ n false hn.1) rfl rfl ⟨_, _, rfl, hm⟩ (by simp)
    (by simp; exact State.afterRead_history ..), lrEffect_none hr (by simp)⟩

theorem effect_loadF {rd rs1 : Reg} {imm : BitVec 12} {n : Nat} {box : Word → Word} {d : Bool} (hn : 0 < n ∧ n ≤ 8)
    (hm : (Instr.listing false i).memory = true) (hr : (Instr.listing false i).role = .none)
    (h : s.loadF rd rs1 imm n box d i = .next t) : Effect i s t := by
  obtain ⟨h1, rfl⟩ := State.loadF_next h
  obtain ⟨-, h2⟩ := State.loadStop_eq_none.1 h1
  exact ⟨.load _ n _ Annot.none ⟨hn.1, hn.2, h2⟩ (State.parts_cut _ _ n d hn.1) rfl rfl ⟨_, _, rfl, hm⟩ (by simp)
    (by simp; exact State.afterRead_history ..), lrEffect_none hr (by simp)⟩

theorem effect_storeX {rs2 rs1 : Reg} {imm : BitVec 12} {n : Nat} (hn : 0 < n ∧ n ≤ 8)
    (hm : (Instr.listing false i).memory = true) (hr : (Instr.listing false i).role = .none)
    (h : s.storeX rs2 rs1 imm n i = .next t) : Effect i s t := by
  obtain ⟨h1, rfl⟩ := State.storeX_next h
  obtain ⟨-, h2, h3⟩ := State.storeStop_eq_none.1 h1
  exact ⟨.store _ n (s.parts (s.effAddr rs1 imm) n false).1 (bytesOf n (s.readX rs2)) Annot.none none ⟨hn.1, hn.2, h2⟩
    (State.parts_cut s (s.effAddr rs1 imm) n false hn.1) h3 (by simp) rfl rfl ⟨_, _, rfl, hm⟩ (by simp)
    (by rw [State.retire_history, State.memWrite_history, bytesOf_length]), lrEffect_none hr (by simp)⟩

theorem effect_storeF {rs2 rs1 : Reg} {imm : BitVec 12} {n : Nat} {d : Bool} (hn : 0 < n ∧ n ≤ 8)
    (hm : (Instr.listing false i).memory = true) (hr : (Instr.listing false i).role = .none)
    (h : s.storeF rs2 rs1 imm n d i = .next t) : Effect i s t := by
  obtain ⟨h1, rfl⟩ := State.storeF_next h
  obtain ⟨-, h2, h3⟩ := State.storeStop_eq_none.1 h1
  exact ⟨.store _ n (s.parts (s.effAddr rs1 imm) n d).1 (bytesOf n (s.readF rs2)) Annot.none none ⟨hn.1, hn.2, h2⟩
    (State.parts_cut s (s.effAddr rs1 imm) n d hn.1) h3 (by simp) rfl rfl ⟨_, _, rfl, hm⟩ (by simp)
    (by rw [State.retire_history, State.memWrite_history, bytesOf_length]), lrEffect_none hr (by simp)⟩

theorem effect_amoOp {rd rs1 : Reg} {n : Nat} {g : Word → Word} {aq rl : Bool} (hn : 0 < n ∧ n ≤ 8)
    (hm : (Instr.listing false i).memory = true) (hr : (Instr.listing false i).role = .none)
    (h : s.amoOp rd rs1 n g (Annot.amo aq rl) i = .next t) : Effect i s t := by
  obtain ⟨h1, rfl⟩ := State.amoOp_next h
  obtain ⟨-, h2, h3⟩ := State.amoStop_eq_none.1 h1
  exact ⟨.amo _ n (bytesOf n (g (wordOf (s.memRead (s.atomicAddr rs1) n)))) (Annot.amo aq rl) ⟨hn.1, hn.2, h2⟩ h3 (by simp)
    rfl rfl ⟨_, _, rfl, hm⟩ (by simp) (by rw [State.retire_history, State.writeX_history]; rfl), lrEffect_none hr (by simp)⟩

theorem effect_loadReserved {rd rs1 : Reg} {n : Nat} {aq rl : Bool} (hn : 0 < n ∧ n ≤ 8)
    (hm : (Instr.listing false i).memory = true) (hr : (Instr.listing false i).role = .lr)
    (h : s.loadReserved rd rs1 n (Annot.lr aq rl) i = .next t) : Effect i s t := by
  obtain ⟨h1, rfl⟩ := State.loadReserved_next h
  obtain ⟨-, h2⟩ := State.lrStop_eq_none.1 h1
  exact ⟨.load _ n _ (Annot.lr aq rl) ⟨hn.1, hn.2, h2⟩ (State.parts_cut _ _ n false hn.1) rfl rfl ⟨_, _, rfl, hm⟩ (by simp)
    (by simp; exact State.afterRead_history ..), by simp [LrEffect, hr]⟩

theorem effect_storeConditional {rd rs2 rs1 : Reg} {n : Nat} {aq rl : Bool} (hn : 0 < n ∧ n ≤ 8)
    (hm : (Instr.listing true i).memory = true) (hr : (Instr.listing false i).role = .sc)
    (h : s.storeConditional rd rs2 rs1 n (Annot.sc aq rl) i = .next t) : Effect i s t := by
  obtain ⟨-, ⟨-, h2, h3, rfl⟩ | ⟨-, rfl⟩⟩ := State.storeConditional_next h
  · exact ⟨.store _ n (s.drewSc.parts (s.atomicAddr rs1) n false).1 (bytesOf n (s.readX rs2)) (Annot.sc aq rl)
      (s.hart.lr.map LrRecord.inst) ⟨hn.1, hn.2, h2⟩ (State.parts_cut s.drewSc (s.atomicAddr rs1) n false hn.1) h3
      (by simp) rfl rfl ⟨_, _, rfl, hm⟩ (by simp [State.scSuccess])
      (by
        simp only [State.scSuccess, State.retireSc_history, State.writeX_history, State.clearLr_history,
          State.memWrite_history, bytesOf_length]
        rfl),
      by simp [LrEffect, hr, State.scSuccess]⟩
  · exact ⟨.quiet (by simp [State.scFailure]) (by simp [State.scFailure]), by simp [LrEffect, hr, State.scFailure]⟩

/-- Every instruction that goes on. -/
theorem exec_effect (h : exec i s = .next t) : Effect i s t := by
  cases i
  case lui => simp only [exec, execLui] at h; exact effect_setX rfl h
  case auipc => simp only [exec, execAuipc] at h; exact effect_setX rfl h
  case jal => simp only [exec, execJal] at h; exact effect_jump rfl h
  case jalr => simp only [exec, execJalr] at h; exact effect_jump rfl h
  case beq => simp only [exec, execBeq] at h; exact effect_branch rfl h
  case bne => simp only [exec, execBne] at h; exact effect_branch rfl h
  case blt => simp only [exec, execBlt] at h; exact effect_branch rfl h
  case bge => simp only [exec, execBge] at h; exact effect_branch rfl h
  case bltu => simp only [exec, execBltu] at h; exact effect_branch rfl h
  case bgeu => simp only [exec, execBgeu] at h; exact effect_branch rfl h
  case lb => simp only [exec, execLb] at h; exact effect_loadX (by omega) rfl rfl h
  case lh => simp only [exec, execLh] at h; exact effect_loadX (by omega) rfl rfl h
  case lw => simp only [exec, execLw] at h; exact effect_loadX (by omega) rfl rfl h
  case lbu => simp only [exec, execLbu] at h; exact effect_loadX (by omega) rfl rfl h
  case lhu => simp only [exec, execLhu] at h; exact effect_loadX (by omega) rfl rfl h
  case sb => simp only [exec, execSb] at h; exact effect_storeX (by omega) rfl rfl h
  case sh => simp only [exec, execSh] at h; exact effect_storeX (by omega) rfl rfl h
  case sw => simp only [exec, execSw] at h; exact effect_storeX (by omega) rfl rfl h
  case addi => simp only [exec, execAddi] at h; exact effect_setX rfl h
  case slti => simp only [exec, execSlti] at h; exact effect_setX rfl h
  case sltiu => simp only [exec, execSltiu] at h; exact effect_setX rfl h
  case xori => simp only [exec, execXori] at h; exact effect_setX rfl h
  case ori => simp only [exec, execOri] at h; exact effect_setX rfl h
  case andi => simp only [exec, execAndi] at h; exact effect_setX rfl h
  case slli32 => simp only [exec, execSlli32] at h; exact effect_setX rfl h
  case srli32 => simp only [exec, execSrli32] at h; exact effect_setX rfl h
  case srai32 => simp only [exec, execSrai32] at h; exact effect_setX rfl h
  case add => simp only [exec, execAdd] at h; exact effect_setX rfl h
  case sub => simp only [exec, execSub] at h; exact effect_setX rfl h
  case sll => simp only [exec, execSll] at h; exact effect_setX rfl h
  case slt => simp only [exec, execSlt] at h; exact effect_setX rfl h
  case sltu => simp only [exec, execSltu] at h; exact effect_setX rfl h
  case xor => simp only [exec, execXor] at h; exact effect_setX rfl h
  case srl => simp only [exec, execSrl] at h; exact effect_setX rfl h
  case sra => simp only [exec, execSra] at h; exact effect_setX rfl h
  case or => simp only [exec, execOr] at h; exact effect_setX rfl h
  case and => simp only [exec, execAnd] at h; exact effect_setX rfl h
  case fence => cases h; exact ⟨.quiet rfl rfl, lrEffect_none rfl rfl⟩
  case fenceI => cases h; exact ⟨.quiet rfl rfl, lrEffect_none rfl rfl⟩
  case ecall => cases h; exact ⟨.quiet rfl rfl, lrEffect_none rfl rfl⟩
  case ebreak => cases h; exact ⟨.quiet rfl rfl, lrEffect_none rfl rfl⟩
  case csrrw => simp only [exec, execCsrrw] at h; exact effect_csrOp rfl h
  case csrrs => simp only [exec, execCsrrs] at h; exact effect_csrOp rfl h
  case csrrc => simp only [exec, execCsrrc] at h; exact effect_csrOp rfl h
  case csrrwi => simp only [exec, execCsrrwi] at h; exact effect_csrOp rfl h
  case csrrsi => simp only [exec, execCsrrsi] at h; exact effect_csrOp rfl h
  case csrrci => simp only [exec, execCsrrci] at h; exact effect_csrOp rfl h
  case lwu => simp only [exec, execLwu] at h; exact effect_loadX (by omega) rfl rfl h
  case ld => simp only [exec, execLd] at h; exact effect_loadX (by omega) rfl rfl h
  case sd => simp only [exec, execSd] at h; exact effect_storeX (by omega) rfl rfl h
  case slli => simp only [exec, execSlli] at h; exact effect_setX rfl h
  case srli => simp only [exec, execSrli] at h; exact effect_setX rfl h
  case srai => simp only [exec, execSrai] at h; exact effect_setX rfl h
  case addiw => simp only [exec, execAddiw] at h; exact effect_setX rfl h
  case slliw => simp only [exec, execSlliw] at h; exact effect_setX rfl h
  case srliw => simp only [exec, execSrliw] at h; exact effect_setX rfl h
  case sraiw => simp only [exec, execSraiw] at h; exact effect_setX rfl h
  case addw => simp only [exec, execAddw] at h; exact effect_setX rfl h
  case subw => simp only [exec, execSubw] at h; exact effect_setX rfl h
  case sllw => simp only [exec, execSllw] at h; exact effect_setX rfl h
  case srlw => simp only [exec, execSrlw] at h; exact effect_setX rfl h
  case sraw => simp only [exec, execSraw] at h; exact effect_setX rfl h
  case mul => simp only [exec, execMul] at h; exact effect_setX rfl h
  case mulh => simp only [exec, execMulh] at h; exact effect_setX rfl h
  case mulhsu => simp only [exec, execMulhsu] at h; exact effect_setX rfl h
  case mulhu => simp only [exec, execMulhu] at h; exact effect_setX rfl h
  case div => simp only [exec, execDiv] at h; exact effect_setX rfl h
  case divu => simp only [exec, execDivu] at h; exact effect_setX rfl h
  case rem => simp only [exec, execRem] at h; exact effect_setX rfl h
  case remu => simp only [exec, execRemu] at h; exact effect_setX rfl h
  case mulw => simp only [exec, execMulw] at h; exact effect_setX rfl h
  case divw => simp only [exec, execDivw] at h; exact effect_setX rfl h
  case divuw => simp only [exec, execDivuw] at h; exact effect_setX rfl h
  case remw => simp only [exec, execRemw] at h; exact effect_setX rfl h
  case remuw => simp only [exec, execRemuw] at h; exact effect_setX rfl h
  case lrW => simp only [exec, execLrW] at h; exact effect_loadReserved (by omega) rfl rfl h
  case scW => simp only [exec, execScW] at h; exact effect_storeConditional (by omega) rfl rfl h
  case amoswapW => simp only [exec, execAmoswapW] at h; exact effect_amoOp (by omega) rfl rfl h
  case amoaddW => simp only [exec, execAmoaddW] at h; exact effect_amoOp (by omega) rfl rfl h
  case amoxorW => simp only [exec, execAmoxorW] at h; exact effect_amoOp (by omega) rfl rfl h
  case amoandW => simp only [exec, execAmoandW] at h; exact effect_amoOp (by omega) rfl rfl h
  case amoorW => simp only [exec, execAmoorW] at h; exact effect_amoOp (by omega) rfl rfl h
  case amominW => simp only [exec, execAmominW] at h; exact effect_amoOp (by omega) rfl rfl h
  case amomaxW => simp only [exec, execAmomaxW] at h; exact effect_amoOp (by omega) rfl rfl h
  case amominuW => simp only [exec, execAmominuW] at h; exact effect_amoOp (by omega) rfl rfl h
  case amomaxuW => simp only [exec, execAmomaxuW] at h; exact effect_amoOp (by omega) rfl rfl h
  case lrD => simp only [exec, execLrD] at h; exact effect_loadReserved (by omega) rfl rfl h
  case scD => simp only [exec, execScD] at h; exact effect_storeConditional (by omega) rfl rfl h
  case amoswapD => simp only [exec, execAmoswapD] at h; exact effect_amoOp (by omega) rfl rfl h
  case amoaddD => simp only [exec, execAmoaddD] at h; exact effect_amoOp (by omega) rfl rfl h
  case amoxorD => simp only [exec, execAmoxorD] at h; exact effect_amoOp (by omega) rfl rfl h
  case amoandD => simp only [exec, execAmoandD] at h; exact effect_amoOp (by omega) rfl rfl h
  case amoorD => simp only [exec, execAmoorD] at h; exact effect_amoOp (by omega) rfl rfl h
  case amominD => simp only [exec, execAmominD] at h; exact effect_amoOp (by omega) rfl rfl h
  case amomaxD => simp only [exec, execAmomaxD] at h; exact effect_amoOp (by omega) rfl rfl h
  case amominuD => simp only [exec, execAmominuD] at h; exact effect_amoOp (by omega) rfl rfl h
  case amomaxuD => simp only [exec, execAmomaxuD] at h; exact effect_amoOp (by omega) rfl rfl h
  case flw => simp only [exec, execFlw] at h; exact effect_loadF (by omega) rfl rfl h
  case fsw => simp only [exec, execFsw] at h; exact effect_storeF (by omega) rfl rfl h
  case fmaddS => simp only [exec, execFmaddS] at h; exact effect_withRounding (fun _ hr => effect_setS rfl hr) h
  case fmsubS => simp only [exec, execFmsubS] at h; exact effect_withRounding (fun _ hr => effect_setS rfl hr) h
  case fnmsubS => simp only [exec, execFnmsubS] at h; exact effect_withRounding (fun _ hr => effect_setS rfl hr) h
  case fnmaddS => simp only [exec, execFnmaddS] at h; exact effect_withRounding (fun _ hr => effect_setS rfl hr) h
  case faddS => simp only [exec, execFaddS] at h; exact effect_withRounding (fun _ hr => effect_setS rfl hr) h
  case fsubS => simp only [exec, execFsubS] at h; exact effect_withRounding (fun _ hr => effect_setS rfl hr) h
  case fmulS => simp only [exec, execFmulS] at h; exact effect_withRounding (fun _ hr => effect_setS rfl hr) h
  case fdivS => simp only [exec, execFdivS] at h; exact effect_withRounding (fun _ hr => effect_setS rfl hr) h
  case fsqrtS => simp only [exec, execFsqrtS] at h; exact effect_withRounding (fun _ hr => effect_setS rfl hr) h
  case fsgnjS => simp only [exec, execFsgnjS] at h; exact effect_setS rfl h
  case fsgnjnS => simp only [exec, execFsgnjnS] at h; exact effect_setS rfl h
  case fsgnjxS => simp only [exec, execFsgnjxS] at h; exact effect_setS rfl h
  case fminS => simp only [exec, execFminS] at h; exact effect_setS rfl h
  case fmaxS => simp only [exec, execFmaxS] at h; exact effect_setS rfl h
  case fcvtWS => simp only [exec, execFcvtWS] at h; exact effect_withRounding (fun _ hr => effect_setXF rfl hr) h
  case fcvtWUS => simp only [exec, execFcvtWUS] at h; exact effect_withRounding (fun _ hr => effect_setXF rfl hr) h
  case fmvXW => simp only [exec, execFmvXW] at h; exact effect_setX rfl h
  case feqS => simp only [exec, execFeqS] at h; exact effect_setXF rfl h
  case fltS => simp only [exec, execFltS] at h; exact effect_setXF rfl h
  case fleS => simp only [exec, execFleS] at h; exact effect_setXF rfl h
  case fclassS => simp only [exec, execFclassS] at h; exact effect_setX rfl h
  case fcvtSW => simp only [exec, execFcvtSW] at h; exact effect_withRounding (fun _ hr => effect_setS rfl hr) h
  case fcvtSWU => simp only [exec, execFcvtSWU] at h; exact effect_withRounding (fun _ hr => effect_setS rfl hr) h
  case fmvWX => cases h; exact ⟨.quiet (by simp) (by simp), lrEffect_none rfl (by simp)⟩
  case fcvtLS => simp only [exec, execFcvtLS] at h; exact effect_withRounding (fun _ hr => effect_setXF rfl hr) h
  case fcvtLUS => simp only [exec, execFcvtLUS] at h; exact effect_withRounding (fun _ hr => effect_setXF rfl hr) h
  case fcvtSL => simp only [exec, execFcvtSL] at h; exact effect_withRounding (fun _ hr => effect_setS rfl hr) h
  case fcvtSLU => simp only [exec, execFcvtSLU] at h; exact effect_withRounding (fun _ hr => effect_setS rfl hr) h
  case fld => simp only [exec, execFld] at h; exact effect_loadF (by omega) rfl rfl h
  case fsd => simp only [exec, execFsd] at h; exact effect_storeF (by omega) rfl rfl h
  case fmaddD => simp only [exec, execFmaddD] at h; exact effect_withRounding (fun _ hr => effect_setD rfl hr) h
  case fmsubD => simp only [exec, execFmsubD] at h; exact effect_withRounding (fun _ hr => effect_setD rfl hr) h
  case fnmsubD => simp only [exec, execFnmsubD] at h; exact effect_withRounding (fun _ hr => effect_setD rfl hr) h
  case fnmaddD => simp only [exec, execFnmaddD] at h; exact effect_withRounding (fun _ hr => effect_setD rfl hr) h
  case faddD => simp only [exec, execFaddD] at h; exact effect_withRounding (fun _ hr => effect_setD rfl hr) h
  case fsubD => simp only [exec, execFsubD] at h; exact effect_withRounding (fun _ hr => effect_setD rfl hr) h
  case fmulD => simp only [exec, execFmulD] at h; exact effect_withRounding (fun _ hr => effect_setD rfl hr) h
  case fdivD => simp only [exec, execFdivD] at h; exact effect_withRounding (fun _ hr => effect_setD rfl hr) h
  case fsqrtD => simp only [exec, execFsqrtD] at h; exact effect_withRounding (fun _ hr => effect_setD rfl hr) h
  case fsgnjD => simp only [exec, execFsgnjD] at h; exact effect_setD rfl h
  case fsgnjnD => simp only [exec, execFsgnjnD] at h; exact effect_setD rfl h
  case fsgnjxD => simp only [exec, execFsgnjxD] at h; exact effect_setD rfl h
  case fminD => simp only [exec, execFminD] at h; exact effect_setD rfl h
  case fmaxD => simp only [exec, execFmaxD] at h; exact effect_setD rfl h
  case fcvtSD => simp only [exec, execFcvtSD] at h; exact effect_withRounding (fun _ hr => effect_setS rfl hr) h
  case fcvtDS => simp only [exec, execFcvtDS] at h; exact effect_withRounding (fun _ hr => effect_setD rfl hr) h
  case feqD => simp only [exec, execFeqD] at h; exact effect_setXF rfl h
  case fltD => simp only [exec, execFltD] at h; exact effect_setXF rfl h
  case fleD => simp only [exec, execFleD] at h; exact effect_setXF rfl h
  case fclassD => simp only [exec, execFclassD] at h; exact effect_setX rfl h
  case fcvtWD => simp only [exec, execFcvtWD] at h; exact effect_withRounding (fun _ hr => effect_setXF rfl hr) h
  case fcvtWUD => simp only [exec, execFcvtWUD] at h; exact effect_withRounding (fun _ hr => effect_setXF rfl hr) h
  case fcvtDW => simp only [exec, execFcvtDW] at h; exact effect_withRounding (fun _ hr => effect_setD rfl hr) h
  case fcvtDWU => simp only [exec, execFcvtDWU] at h; exact effect_withRounding (fun _ hr => effect_setD rfl hr) h
  case fcvtLD => simp only [exec, execFcvtLD] at h; exact effect_withRounding (fun _ hr => effect_setXF rfl hr) h
  case fcvtLUD => simp only [exec, execFcvtLUD] at h; exact effect_withRounding (fun _ hr => effect_setXF rfl hr) h
  case fmvXD => simp only [exec, execFmvXD] at h; exact effect_setX rfl h
  case fcvtDL => simp only [exec, execFcvtDL] at h; exact effect_withRounding (fun _ hr => effect_setD rfl hr) h
  case fcvtDLU => simp only [exec, execFcvtDLU] at h; exact effect_withRounding (fun _ hr => effect_setD rfl hr) h
  case fmvDX => cases h; exact ⟨.quiet (by simp) (by simp), lrEffect_none rfl (by simp)⟩

end Sys2Proof.Machine
end

