-- ==== Sys2Proof/Laws/PerInstr.lean ====
section
/-! SUPPORT. Per instruction: the fields the encoder packs are read back as the instruction. -/

namespace Sys2Proof.Laws.RoundTrip

/-- For every XLEN that has the row, and an even offset where there is one, decoding the fields of the instruction gives it. -/
def Statement (i : Instr) : Prop :=
  ∀ x : Xlen, Machine.existsFor x i = true → offsetEven i = true → decodeFields x (encodeFields i) = some i

theorem lui (rd : Reg) (imm : BitVec 20) : Statement (.lui rd imm) := by
  intro x _ _
  exact congrArg (fun v => some (Instr.lui rd v)) (immU_pack imm)

theorem auipc (rd : Reg) (imm : BitVec 20) : Statement (.auipc rd imm) := by
  intro x _ _
  exact congrArg (fun v => some (Instr.auipc rd v)) (immU_pack imm)

theorem jal (rd : Reg) (imm : BitVec 21) : Statement (.jal rd imm) := by
  intro x _ h
  exact congrArg (fun v => some (Instr.jal rd v)) (immJ_pack imm h)

theorem jalr (rd rs1 : Reg) (imm : BitVec 12) : Statement (.jalr rd rs1 imm) := by
  intro x _ _
  show some (Instr.jalr rd rs1 (imm.extractLsb' 5 7 ++ imm.extractLsb' 0 5)) = _
  rw [immI_pack]

theorem beq (rs1 rs2 : Reg) (imm : BitVec 13) : Statement (.beq rs1 rs2 imm) := by
  intro x _ h
  exact congrArg (fun v => some (Instr.beq rs1 rs2 v)) (immB_pack imm h)

theorem bne (rs1 rs2 : Reg) (imm : BitVec 13) : Statement (.bne rs1 rs2 imm) := by
  intro x _ h
  exact congrArg (fun v => some (Instr.bne rs1 rs2 v)) (immB_pack imm h)

theorem blt (rs1 rs2 : Reg) (imm : BitVec 13) : Statement (.blt rs1 rs2 imm) := by
  intro x _ h
  exact congrArg (fun v => some (Instr.blt rs1 rs2 v)) (immB_pack imm h)

theorem bge (rs1 rs2 : Reg) (imm : BitVec 13) : Statement (.bge rs1 rs2 imm) := by
  intro x _ h
  exact congrArg (fun v => some (Instr.bge rs1 rs2 v)) (immB_pack imm h)

theorem bltu (rs1 rs2 : Reg) (imm : BitVec 13) : Statement (.bltu rs1 rs2 imm) := by
  intro x _ h
  exact congrArg (fun v => some (Instr.bltu rs1 rs2 v)) (immB_pack imm h)

theorem bgeu (rs1 rs2 : Reg) (imm : BitVec 13) : Statement (.bgeu rs1 rs2 imm) := by
  intro x _ h
  exact congrArg (fun v => some (Instr.bgeu rs1 rs2 v)) (immB_pack imm h)

theorem lb (rd rs1 : Reg) (imm : BitVec 12) : Statement (.lb rd rs1 imm) := by
  intro x _ _
  show some (Instr.lb rd rs1 (imm.extractLsb' 5 7 ++ imm.extractLsb' 0 5)) = _
  rw [immI_pack]

theorem lh (rd rs1 : Reg) (imm : BitVec 12) : Statement (.lh rd rs1 imm) := by
  intro x _ _
  show some (Instr.lh rd rs1 (imm.extractLsb' 5 7 ++ imm.extractLsb' 0 5)) = _
  rw [immI_pack]

theorem lw (rd rs1 : Reg) (imm : BitVec 12) : Statement (.lw rd rs1 imm) := by
  intro x _ _
  show some (Instr.lw rd rs1 (imm.extractLsb' 5 7 ++ imm.extractLsb' 0 5)) = _
  rw [immI_pack]

theorem lbu (rd rs1 : Reg) (imm : BitVec 12) : Statement (.lbu rd rs1 imm) := by
  intro x _ _
  show some (Instr.lbu rd rs1 (imm.extractLsb' 5 7 ++ imm.extractLsb' 0 5)) = _
  rw [immI_pack]

theorem lhu (rd rs1 : Reg) (imm : BitVec 12) : Statement (.lhu rd rs1 imm) := by
  intro x _ _
  show some (Instr.lhu rd rs1 (imm.extractLsb' 5 7 ++ imm.extractLsb' 0 5)) = _
  rw [immI_pack]

theorem sb (rs2 rs1 : Reg) (imm : BitVec 12) : Statement (.sb rs2 rs1 imm) := by
  intro x _ _
  show some (Instr.sb rs2 rs1 (imm.extractLsb' 5 7 ++ imm.extractLsb' 0 5)) = _
  rw [immI_pack]

theorem sh (rs2 rs1 : Reg) (imm : BitVec 12) : Statement (.sh rs2 rs1 imm) := by
  intro x _ _
  show some (Instr.sh rs2 rs1 (imm.extractLsb' 5 7 ++ imm.extractLsb' 0 5)) = _
  rw [immI_pack]

theorem sw (rs2 rs1 : Reg) (imm : BitVec 12) : Statement (.sw rs2 rs1 imm) := by
  intro x _ _
  show some (Instr.sw rs2 rs1 (imm.extractLsb' 5 7 ++ imm.extractLsb' 0 5)) = _
  rw [immI_pack]

theorem addi (rd rs1 : Reg) (imm : BitVec 12) : Statement (.addi rd rs1 imm) := by
  intro x _ _
  show some (Instr.addi rd rs1 (imm.extractLsb' 5 7 ++ imm.extractLsb' 0 5)) = _
  rw [immI_pack]

theorem slti (rd rs1 : Reg) (imm : BitVec 12) : Statement (.slti rd rs1 imm) := by
  intro x _ _
  show some (Instr.slti rd rs1 (imm.extractLsb' 5 7 ++ imm.extractLsb' 0 5)) = _
  rw [immI_pack]

theorem sltiu (rd rs1 : Reg) (imm : BitVec 12) : Statement (.sltiu rd rs1 imm) := by
  intro x _ _
  show some (Instr.sltiu rd rs1 (imm.extractLsb' 5 7 ++ imm.extractLsb' 0 5)) = _
  rw [immI_pack]

theorem xori (rd rs1 : Reg) (imm : BitVec 12) : Statement (.xori rd rs1 imm) := by
  intro x _ _
  show some (Instr.xori rd rs1 (imm.extractLsb' 5 7 ++ imm.extractLsb' 0 5)) = _
  rw [immI_pack]

theorem ori (rd rs1 : Reg) (imm : BitVec 12) : Statement (.ori rd rs1 imm) := by
  intro x _ _
  show some (Instr.ori rd rs1 (imm.extractLsb' 5 7 ++ imm.extractLsb' 0 5)) = _
  rw [immI_pack]

theorem andi (rd rs1 : Reg) (imm : BitVec 12) : Statement (.andi rd rs1 imm) := by
  intro x _ _
  show some (Instr.andi rd rs1 (imm.extractLsb' 5 7 ++ imm.extractLsb' 0 5)) = _
  rw [immI_pack]

theorem slli32 (rd rs1 : Reg) (shamt : BitVec 5) : Statement (.slli32 rd rs1 shamt) := by
  intro x h _
  obtain rfl : x = .rv32 := of_decide_eq_true h
  rfl

theorem srli32 (rd rs1 : Reg) (shamt : BitVec 5) : Statement (.srli32 rd rs1 shamt) := by
  intro x h _
  obtain rfl : x = .rv32 := of_decide_eq_true h
  rfl

theorem srai32 (rd rs1 : Reg) (shamt : BitVec 5) : Statement (.srai32 rd rs1 shamt) := by
  intro x h _
  obtain rfl : x = .rv32 := of_decide_eq_true h
  rfl

theorem add (rd rs1 rs2 : Reg) : Statement (.add rd rs1 rs2) := by
  intro x _ _
  rfl

theorem sub (rd rs1 rs2 : Reg) : Statement (.sub rd rs1 rs2) := by
  intro x _ _
  rfl

theorem sll (rd rs1 rs2 : Reg) : Statement (.sll rd rs1 rs2) := by
  intro x _ _
  rfl

theorem slt (rd rs1 rs2 : Reg) : Statement (.slt rd rs1 rs2) := by
  intro x _ _
  rfl

theorem sltu (rd rs1 rs2 : Reg) : Statement (.sltu rd rs1 rs2) := by
  intro x _ _
  rfl

theorem xor (rd rs1 rs2 : Reg) : Statement (.xor rd rs1 rs2) := by
  intro x _ _
  rfl

theorem srl (rd rs1 rs2 : Reg) : Statement (.srl rd rs1 rs2) := by
  intro x _ _
  rfl

theorem sra (rd rs1 rs2 : Reg) : Statement (.sra rd rs1 rs2) := by
  intro x _ _
  rfl

theorem or (rd rs1 rs2 : Reg) : Statement (.or rd rs1 rs2) := by
  intro x _ _
  rfl

theorem and (rd rs1 rs2 : Reg) : Statement (.and rd rs1 rs2) := by
  intro x _ _
  rfl

theorem fence (fm pred succ : BitVec 4) (rs1 rd : Reg) : Statement (.fence fm pred succ rs1 rd) := by
  intro x _ _
  simp [decodeFields, rowMiscMem, encodeFields, encFence, encR, Fields.fm, Fields.pred,
    Fields.succ, fence_pack]
  exact ⟨(fence_pack fm pred succ).1, (fence_pack fm pred succ).2.2⟩

theorem fenceI (imm : BitVec 12) (rs1 rd : Reg) : Statement (.fenceI imm rs1 rd) := by
  intro x _ _
  show some (Instr.fenceI (imm.extractLsb' 5 7 ++ imm.extractLsb' 0 5) rs1 rd) = _
  rw [immI_pack]

theorem ecall : Statement (.ecall) := by
  intro x _ _
  rfl

theorem ebreak : Statement (.ebreak) := by
  intro x _ _
  rfl

theorem csrrw (rd : Reg) (csr : BitVec 12) (rs1 : Reg) : Statement (.csrrw rd csr rs1) := by
  intro x _ _
  show some (Instr.csrrw rd (csr.extractLsb' 5 7 ++ csr.extractLsb' 0 5) rs1) = _
  rw [immI_pack]

theorem csrrs (rd : Reg) (csr : BitVec 12) (rs1 : Reg) : Statement (.csrrs rd csr rs1) := by
  intro x _ _
  show some (Instr.csrrs rd (csr.extractLsb' 5 7 ++ csr.extractLsb' 0 5) rs1) = _
  rw [immI_pack]

theorem csrrc (rd : Reg) (csr : BitVec 12) (rs1 : Reg) : Statement (.csrrc rd csr rs1) := by
  intro x _ _
  show some (Instr.csrrc rd (csr.extractLsb' 5 7 ++ csr.extractLsb' 0 5) rs1) = _
  rw [immI_pack]

theorem csrrwi (rd : Reg) (csr : BitVec 12) (uimm : BitVec 5) : Statement (.csrrwi rd csr uimm) := by
  intro x _ _
  show some (Instr.csrrwi rd (csr.extractLsb' 5 7 ++ csr.extractLsb' 0 5) uimm) = _
  rw [immI_pack]

theorem csrrsi (rd : Reg) (csr : BitVec 12) (uimm : BitVec 5) : Statement (.csrrsi rd csr uimm) := by
  intro x _ _
  show some (Instr.csrrsi rd (csr.extractLsb' 5 7 ++ csr.extractLsb' 0 5) uimm) = _
  rw [immI_pack]

theorem csrrci (rd : Reg) (csr : BitVec 12) (uimm : BitVec 5) : Statement (.csrrci rd csr uimm) := by
  intro x _ _
  show some (Instr.csrrci rd (csr.extractLsb' 5 7 ++ csr.extractLsb' 0 5) uimm) = _
  rw [immI_pack]

theorem lwu (rd rs1 : Reg) (imm : BitVec 12) : Statement (.lwu rd rs1 imm) := by
  intro x _ _
  show some (Instr.lwu rd rs1 (imm.extractLsb' 5 7 ++ imm.extractLsb' 0 5)) = _
  rw [immI_pack]

theorem ld (rd rs1 : Reg) (imm : BitVec 12) : Statement (.ld rd rs1 imm) := by
  intro x _ _
  show some (Instr.ld rd rs1 (imm.extractLsb' 5 7 ++ imm.extractLsb' 0 5)) = _
  rw [immI_pack]

theorem sd (rs2 rs1 : Reg) (imm : BitVec 12) : Statement (.sd rs2 rs1 imm) := by
  intro x _ _
  show some (Instr.sd rs2 rs1 (imm.extractLsb' 5 7 ++ imm.extractLsb' 0 5)) = _
  rw [immI_pack]

theorem slli (rd rs1 : Reg) (shamt : BitVec 6) : Statement (.slli rd rs1 shamt) := by
  intro x h _
  obtain rfl : x = .rv64 := of_decide_eq_true h
  simp [decodeFields, rowOpImm, encodeFields, encSh6, encR, Fields.f6, Fields.shamt6, shamt6_pack]

theorem srli (rd rs1 : Reg) (shamt : BitVec 6) : Statement (.srli rd rs1 shamt) := by
  intro x h _
  obtain rfl : x = .rv64 := of_decide_eq_true h
  simp [decodeFields, rowOpImm, encodeFields, encSh6, encR, Fields.f6, Fields.shamt6, shamt6_pack]

theorem srai (rd rs1 : Reg) (shamt : BitVec 6) : Statement (.srai rd rs1 shamt) := by
  intro x h _
  obtain rfl : x = .rv64 := of_decide_eq_true h
  simp [decodeFields, rowOpImm, encodeFields, encSh6, encR, Fields.f6, Fields.shamt6, shamt6_pack]

theorem addiw (rd rs1 : Reg) (imm : BitVec 12) : Statement (.addiw rd rs1 imm) := by
  intro x _ _
  show some (Instr.addiw rd rs1 (imm.extractLsb' 5 7 ++ imm.extractLsb' 0 5)) = _
  rw [immI_pack]

theorem slliw (rd rs1 : Reg) (shamt : BitVec 5) : Statement (.slliw rd rs1 shamt) := by
  intro x _ _
  rfl

theorem srliw (rd rs1 : Reg) (shamt : BitVec 5) : Statement (.srliw rd rs1 shamt) := by
  intro x _ _
  rfl

theorem sraiw (rd rs1 : Reg) (shamt : BitVec 5) : Statement (.sraiw rd rs1 shamt) := by
  intro x _ _
  rfl

theorem addw (rd rs1 rs2 : Reg) : Statement (.addw rd rs1 rs2) := by
  intro x _ _
  rfl

theorem subw (rd rs1 rs2 : Reg) : Statement (.subw rd rs1 rs2) := by
  intro x _ _
  rfl

theorem sllw (rd rs1 rs2 : Reg) : Statement (.sllw rd rs1 rs2) := by
  intro x _ _
  rfl

theorem srlw (rd rs1 rs2 : Reg) : Statement (.srlw rd rs1 rs2) := by
  intro x _ _
  rfl

theorem sraw (rd rs1 rs2 : Reg) : Statement (.sraw rd rs1 rs2) := by
  intro x _ _
  rfl

theorem mul (rd rs1 rs2 : Reg) : Statement (.mul rd rs1 rs2) := by
  intro x _ _
  rfl

theorem mulh (rd rs1 rs2 : Reg) : Statement (.mulh rd rs1 rs2) := by
  intro x _ _
  rfl

theorem mulhsu (rd rs1 rs2 : Reg) : Statement (.mulhsu rd rs1 rs2) := by
  intro x _ _
  rfl

theorem mulhu (rd rs1 rs2 : Reg) : Statement (.mulhu rd rs1 rs2) := by
  intro x _ _
  rfl

theorem div (rd rs1 rs2 : Reg) : Statement (.div rd rs1 rs2) := by
  intro x _ _
  rfl

theorem divu (rd rs1 rs2 : Reg) : Statement (.divu rd rs1 rs2) := by
  intro x _ _
  rfl

theorem rem (rd rs1 rs2 : Reg) : Statement (.rem rd rs1 rs2) := by
  intro x _ _
  rfl

theorem remu (rd rs1 rs2 : Reg) : Statement (.remu rd rs1 rs2) := by
  intro x _ _
  rfl

theorem mulw (rd rs1 rs2 : Reg) : Statement (.mulw rd rs1 rs2) := by
  intro x _ _
  rfl

theorem divw (rd rs1 rs2 : Reg) : Statement (.divw rd rs1 rs2) := by
  intro x _ _
  rfl

theorem divuw (rd rs1 rs2 : Reg) : Statement (.divuw rd rs1 rs2) := by
  intro x _ _
  rfl

theorem remw (rd rs1 rs2 : Reg) : Statement (.remw rd rs1 rs2) := by
  intro x _ _
  rfl

theorem remuw (rd rs1 rs2 : Reg) : Statement (.remuw rd rs1 rs2) := by
  intro x _ _
  rfl

theorem lrW (rd rs1 : Reg) (aq rl : Bool) : Statement (.lrW rd rs1 aq rl) := by
  intro x _ _
  cases aq <;> cases rl <;> simp [decodeFields, rowAmo, encodeFields, encAmo, encR, Fields.f5, Fields.aq,
    Fields.rl]

theorem scW (rd rs2 rs1 : Reg) (aq rl : Bool) : Statement (.scW rd rs2 rs1 aq rl) := by
  intro x _ _
  cases aq <;> cases rl <;> simp [decodeFields, rowAmo, encodeFields, encAmo, encR, Fields.f5, Fields.aq,
    Fields.rl]

theorem amoswapW (rd rs2 rs1 : Reg) (aq rl : Bool) : Statement (.amoswapW rd rs2 rs1 aq rl) := by
  intro x _ _
  cases aq <;> cases rl <;> simp [decodeFields, rowAmo, encodeFields, encAmo, encR, Fields.f5, Fields.aq,
    Fields.rl]

theorem amoaddW (rd rs2 rs1 : Reg) (aq rl : Bool) : Statement (.amoaddW rd rs2 rs1 aq rl) := by
  intro x _ _
  cases aq <;> cases rl <;> simp [decodeFields, rowAmo, encodeFields, encAmo, encR, Fields.f5, Fields.aq,
    Fields.rl]

theorem amoxorW (rd rs2 rs1 : Reg) (aq rl : Bool) : Statement (.amoxorW rd rs2 rs1 aq rl) := by
  intro x _ _
  cases aq <;> cases rl <;> simp [decodeFields, rowAmo, encodeFields, encAmo, encR, Fields.f5, Fields.aq,
    Fields.rl]

theorem amoandW (rd rs2 rs1 : Reg) (aq rl : Bool) : Statement (.amoandW rd rs2 rs1 aq rl) := by
  intro x _ _
  cases aq <;> cases rl <;> simp [decodeFields, rowAmo, encodeFields, encAmo, encR, Fields.f5, Fields.aq,
    Fields.rl]

theorem amoorW (rd rs2 rs1 : Reg) (aq rl : Bool) : Statement (.amoorW rd rs2 rs1 aq rl) := by
  intro x _ _
  cases aq <;> cases rl <;> simp [decodeFields, rowAmo, encodeFields, encAmo, encR, Fields.f5, Fields.aq,
    Fields.rl]

theorem amominW (rd rs2 rs1 : Reg) (aq rl : Bool) : Statement (.amominW rd rs2 rs1 aq rl) := by
  intro x _ _
  cases aq <;> cases rl <;> simp [decodeFields, rowAmo, encodeFields, encAmo, encR, Fields.f5, Fields.aq,
    Fields.rl]

theorem amomaxW (rd rs2 rs1 : Reg) (aq rl : Bool) : Statement (.amomaxW rd rs2 rs1 aq rl) := by
  intro x _ _
  cases aq <;> cases rl <;> simp [decodeFields, rowAmo, encodeFields, encAmo, encR, Fields.f5, Fields.aq,
    Fields.rl]

theorem amominuW (rd rs2 rs1 : Reg) (aq rl : Bool) : Statement (.amominuW rd rs2 rs1 aq rl) := by
  intro x _ _
  cases aq <;> cases rl <;> simp [decodeFields, rowAmo, encodeFields, encAmo, encR, Fields.f5, Fields.aq,
    Fields.rl]

theorem amomaxuW (rd rs2 rs1 : Reg) (aq rl : Bool) : Statement (.amomaxuW rd rs2 rs1 aq rl) := by
  intro x _ _
  cases aq <;> cases rl <;> simp [decodeFields, rowAmo, encodeFields, encAmo, encR, Fields.f5, Fields.aq,
    Fields.rl]

theorem lrD (rd rs1 : Reg) (aq rl : Bool) : Statement (.lrD rd rs1 aq rl) := by
  intro x _ _
  cases aq <;> cases rl <;> simp [decodeFields, rowAmo, encodeFields, encAmo, encR, Fields.f5, Fields.aq,
    Fields.rl]

theorem scD (rd rs2 rs1 : Reg) (aq rl : Bool) : Statement (.scD rd rs2 rs1 aq rl) := by
  intro x _ _
  cases aq <;> cases rl <;> simp [decodeFields, rowAmo, encodeFields, encAmo, encR, Fields.f5, Fields.aq,
    Fields.rl]

theorem amoswapD (rd rs2 rs1 : Reg) (aq rl : Bool) : Statement (.amoswapD rd rs2 rs1 aq rl) := by
  intro x _ _
  cases aq <;> cases rl <;> simp [decodeFields, rowAmo, encodeFields, encAmo, encR, Fields.f5, Fields.aq,
    Fields.rl]

theorem amoaddD (rd rs2 rs1 : Reg) (aq rl : Bool) : Statement (.amoaddD rd rs2 rs1 aq rl) := by
  intro x _ _
  cases aq <;> cases rl <;> simp [decodeFields, rowAmo, encodeFields, encAmo, encR, Fields.f5, Fields.aq,
    Fields.rl]

theorem amoxorD (rd rs2 rs1 : Reg) (aq rl : Bool) : Statement (.amoxorD rd rs2 rs1 aq rl) := by
  intro x _ _
  cases aq <;> cases rl <;> simp [decodeFields, rowAmo, encodeFields, encAmo, encR, Fields.f5, Fields.aq,
    Fields.rl]

theorem amoandD (rd rs2 rs1 : Reg) (aq rl : Bool) : Statement (.amoandD rd rs2 rs1 aq rl) := by
  intro x _ _
  cases aq <;> cases rl <;> simp [decodeFields, rowAmo, encodeFields, encAmo, encR, Fields.f5, Fields.aq,
    Fields.rl]

theorem amoorD (rd rs2 rs1 : Reg) (aq rl : Bool) : Statement (.amoorD rd rs2 rs1 aq rl) := by
  intro x _ _
  cases aq <;> cases rl <;> simp [decodeFields, rowAmo, encodeFields, encAmo, encR, Fields.f5, Fields.aq,
    Fields.rl]

theorem amominD (rd rs2 rs1 : Reg) (aq rl : Bool) : Statement (.amominD rd rs2 rs1 aq rl) := by
  intro x _ _
  cases aq <;> cases rl <;> simp [decodeFields, rowAmo, encodeFields, encAmo, encR, Fields.f5, Fields.aq,
    Fields.rl]

theorem amomaxD (rd rs2 rs1 : Reg) (aq rl : Bool) : Statement (.amomaxD rd rs2 rs1 aq rl) := by
  intro x _ _
  cases aq <;> cases rl <;> simp [decodeFields, rowAmo, encodeFields, encAmo, encR, Fields.f5, Fields.aq,
    Fields.rl]

theorem amominuD (rd rs2 rs1 : Reg) (aq rl : Bool) : Statement (.amominuD rd rs2 rs1 aq rl) := by
  intro x _ _
  cases aq <;> cases rl <;> simp [decodeFields, rowAmo, encodeFields, encAmo, encR, Fields.f5, Fields.aq,
    Fields.rl]

theorem amomaxuD (rd rs2 rs1 : Reg) (aq rl : Bool) : Statement (.amomaxuD rd rs2 rs1 aq rl) := by
  intro x _ _
  cases aq <;> cases rl <;> simp [decodeFields, rowAmo, encodeFields, encAmo, encR, Fields.f5, Fields.aq,
    Fields.rl]

theorem flw (rd rs1 : Reg) (imm : BitVec 12) : Statement (.flw rd rs1 imm) := by
  intro x _ _
  show some (Instr.flw rd rs1 (imm.extractLsb' 5 7 ++ imm.extractLsb' 0 5)) = _
  rw [immI_pack]

theorem fsw (rs2 rs1 : Reg) (imm : BitVec 12) : Statement (.fsw rs2 rs1 imm) := by
  intro x _ _
  show some (Instr.fsw rs2 rs1 (imm.extractLsb' 5 7 ++ imm.extractLsb' 0 5)) = _
  rw [immI_pack]

theorem fmaddS (rd rs1 rs2 rs3 : Reg) (rm : BitVec 3) : Statement (.fmaddS rd rs1 rs2 rs3 rm) := by
  intro x _ _
  simp [decodeFields, rowMadd, encodeFields, encR4, encR, Fields.f5, Fields.fmt, r4_pack]

theorem fmsubS (rd rs1 rs2 rs3 : Reg) (rm : BitVec 3) : Statement (.fmsubS rd rs1 rs2 rs3 rm) := by
  intro x _ _
  simp [decodeFields, rowMsub, encodeFields, encR4, encR, Fields.f5, Fields.fmt, r4_pack]

theorem fnmsubS (rd rs1 rs2 rs3 : Reg) (rm : BitVec 3) : Statement (.fnmsubS rd rs1 rs2 rs3 rm) := by
  intro x _ _
  simp [decodeFields, rowNmsub, encodeFields, encR4, encR, Fields.f5, Fields.fmt, r4_pack]

theorem fnmaddS (rd rs1 rs2 rs3 : Reg) (rm : BitVec 3) : Statement (.fnmaddS rd rs1 rs2 rs3 rm) := by
  intro x _ _
  simp [decodeFields, rowNmadd, encodeFields, encR4, encR, Fields.f5, Fields.fmt, r4_pack]

theorem faddS (rd rs1 rs2 : Reg) (rm : BitVec 3) : Statement (.faddS rd rs1 rs2 rm) := by
  intro x _ _
  simp [decodeFields, rowOpFp, encodeFields, encR]

theorem fsubS (rd rs1 rs2 : Reg) (rm : BitVec 3) : Statement (.fsubS rd rs1 rs2 rm) := by
  intro x _ _
  simp [decodeFields, rowOpFp, encodeFields, encR]

theorem fmulS (rd rs1 rs2 : Reg) (rm : BitVec 3) : Statement (.fmulS rd rs1 rs2 rm) := by
  intro x _ _
  simp [decodeFields, rowOpFp, encodeFields, encR]

theorem fdivS (rd rs1 rs2 : Reg) (rm : BitVec 3) : Statement (.fdivS rd rs1 rs2 rm) := by
  intro x _ _
  simp [decodeFields, rowOpFp, encodeFields, encR]

theorem fsqrtS (rd rs1 : Reg) (rm : BitVec 3) : Statement (.fsqrtS rd rs1 rm) := by
  intro x _ _
  simp [decodeFields, rowOpFp, encodeFields, encR]

theorem fsgnjS (rd rs1 rs2 : Reg) : Statement (.fsgnjS rd rs1 rs2) := by
  intro x _ _
  rfl

theorem fsgnjnS (rd rs1 rs2 : Reg) : Statement (.fsgnjnS rd rs1 rs2) := by
  intro x _ _
  rfl

theorem fsgnjxS (rd rs1 rs2 : Reg) : Statement (.fsgnjxS rd rs1 rs2) := by
  intro x _ _
  rfl

theorem fminS (rd rs1 rs2 : Reg) : Statement (.fminS rd rs1 rs2) := by
  intro x _ _
  rfl

theorem fmaxS (rd rs1 rs2 : Reg) : Statement (.fmaxS rd rs1 rs2) := by
  intro x _ _
  rfl

theorem fcvtWS (rd rs1 : Reg) (rm : BitVec 3) : Statement (.fcvtWS rd rs1 rm) := by
  intro x _ _
  simp [decodeFields, rowOpFp, encodeFields, encR]

theorem fcvtWUS (rd rs1 : Reg) (rm : BitVec 3) : Statement (.fcvtWUS rd rs1 rm) := by
  intro x _ _
  simp [decodeFields, rowOpFp, encodeFields, encR]

theorem fmvXW (rd rs1 : Reg) : Statement (.fmvXW rd rs1) := by
  intro x _ _
  rfl

theorem feqS (rd rs1 rs2 : Reg) : Statement (.feqS rd rs1 rs2) := by
  intro x _ _
  rfl

theorem fltS (rd rs1 rs2 : Reg) : Statement (.fltS rd rs1 rs2) := by
  intro x _ _
  rfl

theorem fleS (rd rs1 rs2 : Reg) : Statement (.fleS rd rs1 rs2) := by
  intro x _ _
  rfl

theorem fclassS (rd rs1 : Reg) : Statement (.fclassS rd rs1) := by
  intro x _ _
  rfl

theorem fcvtSW (rd rs1 : Reg) (rm : BitVec 3) : Statement (.fcvtSW rd rs1 rm) := by
  intro x _ _
  simp [decodeFields, rowOpFp, encodeFields, encR]

theorem fcvtSWU (rd rs1 : Reg) (rm : BitVec 3) : Statement (.fcvtSWU rd rs1 rm) := by
  intro x _ _
  simp [decodeFields, rowOpFp, encodeFields, encR]

theorem fmvWX (rd rs1 : Reg) : Statement (.fmvWX rd rs1) := by
  intro x _ _
  rfl

theorem fcvtLS (rd rs1 : Reg) (rm : BitVec 3) : Statement (.fcvtLS rd rs1 rm) := by
  intro x _ _
  simp [decodeFields, rowOpFp, encodeFields, encR]

theorem fcvtLUS (rd rs1 : Reg) (rm : BitVec 3) : Statement (.fcvtLUS rd rs1 rm) := by
  intro x _ _
  simp [decodeFields, rowOpFp, encodeFields, encR]

theorem fcvtSL (rd rs1 : Reg) (rm : BitVec 3) : Statement (.fcvtSL rd rs1 rm) := by
  intro x _ _
  simp [decodeFields, rowOpFp, encodeFields, encR]

theorem fcvtSLU (rd rs1 : Reg) (rm : BitVec 3) : Statement (.fcvtSLU rd rs1 rm) := by
  intro x _ _
  simp [decodeFields, rowOpFp, encodeFields, encR]

theorem fld (rd rs1 : Reg) (imm : BitVec 12) : Statement (.fld rd rs1 imm) := by
  intro x _ _
  show some (Instr.fld rd rs1 (imm.extractLsb' 5 7 ++ imm.extractLsb' 0 5)) = _
  rw [immI_pack]

theorem fsd (rs2 rs1 : Reg) (imm : BitVec 12) : Statement (.fsd rs2 rs1 imm) := by
  intro x _ _
  show some (Instr.fsd rs2 rs1 (imm.extractLsb' 5 7 ++ imm.extractLsb' 0 5)) = _
  rw [immI_pack]

theorem fmaddD (rd rs1 rs2 rs3 : Reg) (rm : BitVec 3) : Statement (.fmaddD rd rs1 rs2 rs3 rm) := by
  intro x _ _
  simp [decodeFields, rowMadd, encodeFields, encR4, encR, Fields.f5, Fields.fmt, r4_pack]

theorem fmsubD (rd rs1 rs2 rs3 : Reg) (rm : BitVec 3) : Statement (.fmsubD rd rs1 rs2 rs3 rm) := by
  intro x _ _
  simp [decodeFields, rowMsub, encodeFields, encR4, encR, Fields.f5, Fields.fmt, r4_pack]

theorem fnmsubD (rd rs1 rs2 rs3 : Reg) (rm : BitVec 3) : Statement (.fnmsubD rd rs1 rs2 rs3 rm) := by
  intro x _ _
  simp [decodeFields, rowNmsub, encodeFields, encR4, encR, Fields.f5, Fields.fmt, r4_pack]

theorem fnmaddD (rd rs1 rs2 rs3 : Reg) (rm : BitVec 3) : Statement (.fnmaddD rd rs1 rs2 rs3 rm) := by
  intro x _ _
  simp [decodeFields, rowNmadd, encodeFields, encR4, encR, Fields.f5, Fields.fmt, r4_pack]

theorem faddD (rd rs1 rs2 : Reg) (rm : BitVec 3) : Statement (.faddD rd rs1 rs2 rm) := by
  intro x _ _
  simp [decodeFields, rowOpFp, encodeFields, encR]

theorem fsubD (rd rs1 rs2 : Reg) (rm : BitVec 3) : Statement (.fsubD rd rs1 rs2 rm) := by
  intro x _ _
  simp [decodeFields, rowOpFp, encodeFields, encR]

theorem fmulD (rd rs1 rs2 : Reg) (rm : BitVec 3) : Statement (.fmulD rd rs1 rs2 rm) := by
  intro x _ _
  simp [decodeFields, rowOpFp, encodeFields, encR]

theorem fdivD (rd rs1 rs2 : Reg) (rm : BitVec 3) : Statement (.fdivD rd rs1 rs2 rm) := by
  intro x _ _
  simp [decodeFields, rowOpFp, encodeFields, encR]

theorem fsqrtD (rd rs1 : Reg) (rm : BitVec 3) : Statement (.fsqrtD rd rs1 rm) := by
  intro x _ _
  simp [decodeFields, rowOpFp, encodeFields, encR]

theorem fsgnjD (rd rs1 rs2 : Reg) : Statement (.fsgnjD rd rs1 rs2) := by
  intro x _ _
  rfl

theorem fsgnjnD (rd rs1 rs2 : Reg) : Statement (.fsgnjnD rd rs1 rs2) := by
  intro x _ _
  rfl

theorem fsgnjxD (rd rs1 rs2 : Reg) : Statement (.fsgnjxD rd rs1 rs2) := by
  intro x _ _
  rfl

theorem fminD (rd rs1 rs2 : Reg) : Statement (.fminD rd rs1 rs2) := by
  intro x _ _
  rfl

theorem fmaxD (rd rs1 rs2 : Reg) : Statement (.fmaxD rd rs1 rs2) := by
  intro x _ _
  rfl

theorem fcvtSD (rd rs1 : Reg) (rm : BitVec 3) : Statement (.fcvtSD rd rs1 rm) := by
  intro x _ _
  simp [decodeFields, rowOpFp, encodeFields, encR]

theorem fcvtDS (rd rs1 : Reg) (rm : BitVec 3) : Statement (.fcvtDS rd rs1 rm) := by
  intro x _ _
  simp [decodeFields, rowOpFp, encodeFields, encR]

theorem feqD (rd rs1 rs2 : Reg) : Statement (.feqD rd rs1 rs2) := by
  intro x _ _
  rfl

theorem fltD (rd rs1 rs2 : Reg) : Statement (.fltD rd rs1 rs2) := by
  intro x _ _
  rfl

theorem fleD (rd rs1 rs2 : Reg) : Statement (.fleD rd rs1 rs2) := by
  intro x _ _
  rfl

theorem fclassD (rd rs1 : Reg) : Statement (.fclassD rd rs1) := by
  intro x _ _
  rfl

theorem fcvtWD (rd rs1 : Reg) (rm : BitVec 3) : Statement (.fcvtWD rd rs1 rm) := by
  intro x _ _
  simp [decodeFields, rowOpFp, encodeFields, encR]

theorem fcvtWUD (rd rs1 : Reg) (rm : BitVec 3) : Statement (.fcvtWUD rd rs1 rm) := by
  intro x _ _
  simp [decodeFields, rowOpFp, encodeFields, encR]

theorem fcvtDW (rd rs1 : Reg) (rm : BitVec 3) : Statement (.fcvtDW rd rs1 rm) := by
  intro x _ _
  simp [decodeFields, rowOpFp, encodeFields, encR]

theorem fcvtDWU (rd rs1 : Reg) (rm : BitVec 3) : Statement (.fcvtDWU rd rs1 rm) := by
  intro x _ _
  simp [decodeFields, rowOpFp, encodeFields, encR]

theorem fcvtLD (rd rs1 : Reg) (rm : BitVec 3) : Statement (.fcvtLD rd rs1 rm) := by
  intro x _ _
  simp [decodeFields, rowOpFp, encodeFields, encR]

theorem fcvtLUD (rd rs1 : Reg) (rm : BitVec 3) : Statement (.fcvtLUD rd rs1 rm) := by
  intro x _ _
  simp [decodeFields, rowOpFp, encodeFields, encR]

theorem fmvXD (rd rs1 : Reg) : Statement (.fmvXD rd rs1) := by
  intro x _ _
  rfl

theorem fcvtDL (rd rs1 : Reg) (rm : BitVec 3) : Statement (.fcvtDL rd rs1 rm) := by
  intro x _ _
  simp [decodeFields, rowOpFp, encodeFields, encR]

theorem fcvtDLU (rd rs1 : Reg) (rm : BitVec 3) : Statement (.fcvtDLU rd rs1 rm) := by
  intro x _ _
  simp [decodeFields, rowOpFp, encodeFields, encR]

theorem fmvDX (rd rs1 : Reg) : Statement (.fmvDX rd rs1) := by
  intro x _ _
  rfl

end Sys2Proof.Laws.RoundTrip
end

