-- ==== Sys2Proof/Laws/Runs.lean ====
section
/-! SUPPORT. What the start of a run holds, hart by hart, and what the execution of a run is made of. -/

namespace Sys2Proof.Machine

@[simp] theorem startHarts_length (n : Nat) (ps : List Program) : (startHarts n ps).length = ps.length := by
  induction ps generalizing n with
  | nil => rfl
  | cons p ps ih => simp [startHarts, ih]

/-- Hart k of those that start is number n + k, with the entry and the length of program k. -/
theorem startHarts_getElem? (n k : Nat) (ps : List Program) :
    (startHarts n ps)[k]? = ps[k]?.map fun p => Hart.start (n + k) p.entry p.words.length := by
  induction ps generalizing n k with
  | nil => rfl
  | cons p ps ih => cases k with
    | zero => rfl
    | succ k => simp [startHarts, ih, Nat.add_right_comm n 1 k, ← Nat.add_assoc]

section Start

variable (p : Params) (first : Program) (rest : List Program) (d : Draws)

@[simp] theorem State.start_mem : (State.start p first rest d).mem = [] := rfl
@[simp] theorem State.start_history : (State.start p first rest d).history = [] := rfl
@[simp] theorem State.start_fetched : (State.start p first rest d).fetched = [] := rfl
@[simp] theorem State.start_draws : (State.start p first rest d).draws = d := rfl
@[simp] theorem State.start_hart : (State.start p first rest d).hart = Hart.start 0 first.entry first.words.length := rfl
@[simp] theorem State.start_others : (State.start p first rest d).others = startHarts 1 rest := rfl
@[simp] theorem State.start_xlen : (State.start p first rest d).xlen = p.xlen := rfl
@[simp] theorem State.start_ext : (State.start p first rest d).params.ext = p.ext := rfl
@[simp] theorem State.start_init : (State.start p first rest d).params.init = listPrograms p.init (first :: rest) := rfl

/-- The harts of a start are those of the programs, numbered from 0. -/
theorem State.start_harts : (State.start p first rest d).harts = startHarts 0 (first :: rest) := rfl

end Start

section Run

variable (r : Nat → State)

@[simp] theorem runExecution_ops (o : MemOp) : (runExecution r).ops o ↔ ∃ n, o ∈ (r n).history := Iff.rfl
@[simp] theorem runExecution_inst (h p : Nat) :
    (runExecution r).inst h p = (r ((p + 1) * (r 0).harts.length)).execution.inst h p := rfl
@[simp] theorem runExecution_main : (runExecution r).main = (r 0).execution.main := rfl
@[simp] theorem runExecution_init : (runExecution r).init = (r 0).execution.init := rfl

end Run

end Sys2Proof.Machine
end

