-- ==== Sys2Proof/Tests/Slice0.lean ====
section
/-! SUPPORT. Small tests: the words and results of the Example lines of files 40 to 45 and of 95_test_vectors.md, a smoke test
of the well-formedness checks, and for every obligation with hypotheses a state that meets them. -/

namespace Sys2Proof.Tests

open Sys2Proof.Machine Sys2Proof.Claims

set_option maxRecDepth 100000

/-! ### A small state, and what one step leaves -/

/-- Registers with some values put in. -/
def put (v : Vector Word 32) (l : List (Nat × Nat)) : Vector Word 32 :=
  l.foldl (fun v p => v.setIfInBounds p.1 (BitVec.ofNat 64 p.2)) v

/-- One hart at 0x1000 with some integer registers, floating-point registers and bytes of initial memory. -/
def start (x : Xlen) (xs fs ms : List (Nat × Nat)) : State :=
  { State.reset with
    params := { Params.reset with xlen := x, init := ms.map (fun p => (p.1, BitVec.ofNat 8 p.2)) }
    hart := { Hart.start 0 0x1000 0 with x := put (Vector.replicate 32 0) xs, f := put (Vector.replicate 32 0) fs } }

/-- The same at another pc. -/
def atPc (pc : Nat) (s : State) : State := { s with hart := { s.hart with pc := BitVec.ofNat 64 pc } }

/-- The same with frm and fflags. -/
def withCsr (frm fflags : Nat) (s : State) : State :=
  { s with hart := { s.hart with frm := BitVec.ofNat 3 frm, fflags := BitVec.ofNat 5 fflags } }

/-- The same with an LR of n bytes at 0x2000 outstanding, and a draw of success. -/
def paired (n : Nat) (s : State) : State :=
  { s with hart := { s.hart with pos := 1, lr := some { inst := 0, addr := 0x2000, width := n } }
           draws := { s.draws with scs := [true] } }

/-- The state after the step that runs a word. -/
def after (s : State) (w : Nat) : Option State :=
  match step (s.withFetchWord 32 w) with
  | .next t => some t
  | _ => none

def xAfter (s : State) (w : Nat) (r : Reg) : Option Nat := (after s w).map fun t => (t.readX r).toNat
def fAfter (s : State) (w : Nat) (r : Reg) : Option Nat := (after s w).map fun t => (t.readF r).toNat
def pcAfter (s : State) (w : Nat) : Option Nat := (after s w).map fun t => t.pc.toNat
def csrAfter (s : State) (w : Nat) (a : BitVec 12) : Option Nat :=
  ((after s w).bind fun t => t.readCsr a).map BitVec.toNat
def memAfter (s : State) (w a n : Nat) : Option (List Nat) :=
  (after s w).map fun t => (List.range n).map fun k => (t.byteAt (a + k)).toNat

/-! ### Decoding: the words of the Example lines -/

theorem test_decode_jumps :
    decode .rv32 .all 0x123452B7 = .ok (.lui 5 74565) ∧
    decode .rv32 .all 0x00001297 = .ok (.auipc 5 1) ∧
    decode .rv32 .all 0x008000EF = .ok (.jal 1 8) := by decide

theorem test_decode_branches :
    decode .rv32 .all 0x004300E7 = .ok (.jalr 1 6 4) ∧
    decode .rv32 .all 0x00628863 = .ok (.beq 5 6 16) ∧
    decode .rv32 .all 0x00629863 = .ok (.bne 5 6 16) ∧
    decode .rv32 .all 0x0062C863 = .ok (.blt 5 6 16) ∧
    decode .rv32 .all 0x0062D863 = .ok (.bge 5 6 16) ∧
    decode .rv32 .all 0x0062E863 = .ok (.bltu 5 6 16) ∧
    decode .rv32 .all 0x0062F863 = .ok (.bgeu 5 6 16) := by decide

theorem test_decode_loads :
    decode .rv32 .all 0x00430283 = .ok (.lb 5 6 4) ∧
    decode .rv32 .all 0x00431283 = .ok (.lh 5 6 4) ∧
    decode .rv32 .all 0x00432283 = .ok (.lw 5 6 4) ∧
    decode .rv32 .all 0x00434283 = .ok (.lbu 5 6 4) ∧
    decode .rv32 .all 0x00435283 = .ok (.lhu 5 6 4) := by decide

theorem test_decode_stores :
    decode .rv32 .all 0x00730223 = .ok (.sb 7 6 4) ∧
    decode .rv32 .all 0x00731223 = .ok (.sh 7 6 4) ∧
    decode .rv32 .all 0x00732223 = .ok (.sw 7 6 4) := by decide

theorem test_decode_immediates :
    decode .rv32 .all 0x00130293 = .ok (.addi 5 6 1) ∧
    decode .rv32 .all 0x00132293 = .ok (.slti 5 6 1) ∧
    decode .rv32 .all 0x00133293 = .ok (.sltiu 5 6 1) ∧
    decode .rv32 .all 0x00134293 = .ok (.xori 5 6 1) ∧
    decode .rv32 .all 0x00136293 = .ok (.ori 5 6 1) ∧
    decode .rv32 .all 0x00137293 = .ok (.andi 5 6 1) ∧
    decode .rv32 .all 0x00331293 = .ok (.slli32 5 6 3) ∧
    decode .rv32 .all 0x00335293 = .ok (.srli32 5 6 3) ∧
    decode .rv32 .all 0x40335293 = .ok (.srai32 5 6 3) := by decide

theorem test_decode_registers :
    decode .rv32 .all 0x007302B3 = .ok (.add 5 6 7) ∧
    decode .rv32 .all 0x407302B3 = .ok (.sub 5 6 7) ∧
    decode .rv32 .all 0x007312B3 = .ok (.sll 5 6 7) ∧
    decode .rv32 .all 0x007322B3 = .ok (.slt 5 6 7) ∧
    decode .rv32 .all 0x007332B3 = .ok (.sltu 5 6 7) ∧
    decode .rv32 .all 0x007342B3 = .ok (.xor 5 6 7) ∧
    decode .rv32 .all 0x007352B3 = .ok (.srl 5 6 7) ∧
    decode .rv32 .all 0x407352B3 = .ok (.sra 5 6 7) ∧
    decode .rv32 .all 0x007362B3 = .ok (.or 5 6 7) ∧
    decode .rv32 .all 0x007372B3 = .ok (.and 5 6 7) := by decide

theorem test_decode_system :
    decode .rv32 .all 0x0330000F = .ok (.fence 0 3 3 0 0) ∧
    decode .rv32 .all 0x0000100F = .ok (.fenceI 0 0 0) ∧
    decode .rv32 .all 0x00000073 = .ok .ecall ∧
    decode .rv32 .all 0x00100073 = .ok .ebreak := by decide

theorem test_decode_csrs :
    decode .rv32 .all 0x003312F3 = .ok (.csrrw 5 3 6) ∧
    decode .rv32 .all 0x001022F3 = .ok (.csrrs 5 1 0) ∧
    decode .rv32 .all 0x001332F3 = .ok (.csrrc 5 1 6) ∧
    decode .rv32 .all 0x00105073 = .ok (.csrrwi 0 1 0) ∧
    decode .rv32 .all 0x0020E2F3 = .ok (.csrrsi 5 2 1) ∧
    decode .rv32 .all 0x001FF2F3 = .ok (.csrrci 5 1 31) := by decide

theorem test_decode_rv64 :
    decode .rv64 .all 0x00436283 = .ok (.lwu 5 6 4) ∧
    decode .rv64 .all 0x00833283 = .ok (.ld 5 6 8) ∧
    decode .rv64 .all 0x00733423 = .ok (.sd 7 6 8) ∧
    decode .rv64 .all 0x02031293 = .ok (.slli 5 6 32) ∧
    decode .rv64 .all 0x02035293 = .ok (.srli 5 6 32) ∧
    decode .rv64 .all 0x42035293 = .ok (.srai 5 6 32) ∧
    decode .rv64 .all 0x0013029B = .ok (.addiw 5 6 1) ∧
    decode .rv64 .all 0x0033129B = .ok (.slliw 5 6 3) ∧
    decode .rv64 .all 0x0033529B = .ok (.srliw 5 6 3) ∧
    decode .rv64 .all 0x4033529B = .ok (.sraiw 5 6 3) ∧
    decode .rv64 .all 0x007302BB = .ok (.addw 5 6 7) ∧
    decode .rv64 .all 0x407302BB = .ok (.subw 5 6 7) ∧
    decode .rv64 .all 0x007312BB = .ok (.sllw 5 6 7) ∧
    decode .rv64 .all 0x007352BB = .ok (.srlw 5 6 7) ∧
    decode .rv64 .all 0x407352BB = .ok (.sraw 5 6 7) := by decide

theorem test_decode_muldiv :
    decode .rv64 .all 0x027302B3 = .ok (.mul 5 6 7) ∧
    decode .rv64 .all 0x027312B3 = .ok (.mulh 5 6 7) ∧
    decode .rv64 .all 0x027322B3 = .ok (.mulhsu 5 6 7) ∧
    decode .rv64 .all 0x027332B3 = .ok (.mulhu 5 6 7) ∧
    decode .rv64 .all 0x027342B3 = .ok (.div 5 6 7) ∧
    decode .rv64 .all 0x027352B3 = .ok (.divu 5 6 7) ∧
    decode .rv64 .all 0x027362B3 = .ok (.rem 5 6 7) ∧
    decode .rv64 .all 0x027372B3 = .ok (.remu 5 6 7) := by decide

theorem test_decode_muldivWord :
    decode .rv64 .all 0x027302BB = .ok (.mulw 5 6 7) ∧
    decode .rv64 .all 0x027342BB = .ok (.divw 5 6 7) ∧
    decode .rv64 .all 0x027352BB = .ok (.divuw 5 6 7) ∧
    decode .rv64 .all 0x027362BB = .ok (.remw 5 6 7) ∧
    decode .rv64 .all 0x027372BB = .ok (.remuw 5 6 7) := by decide

theorem test_decode_atomicW :
    decode .rv64 .all 0x140322AF = .ok (.lrW 5 6 true false) ∧
    decode .rv64 .all 0x187322AF = .ok (.scW 5 7 6 false false) ∧
    decode .rv64 .all 0x087322AF = .ok (.amoswapW 5 7 6 false false) ∧
    decode .rv64 .all 0x007322AF = .ok (.amoaddW 5 7 6 false false) ∧
    decode .rv64 .all 0x207322AF = .ok (.amoxorW 5 7 6 false false) ∧
    decode .rv64 .all 0x607322AF = .ok (.amoandW 5 7 6 false false) ∧
    decode .rv64 .all 0x407322AF = .ok (.amoorW 5 7 6 false false) ∧
    decode .rv64 .all 0x807322AF = .ok (.amominW 5 7 6 false false) ∧
    decode .rv64 .all 0xA07322AF = .ok (.amomaxW 5 7 6 false false) ∧
    decode .rv64 .all 0xC07322AF = .ok (.amominuW 5 7 6 false false) ∧
    decode .rv64 .all 0xE07322AF = .ok (.amomaxuW 5 7 6 false false) := by decide

theorem test_decode_atomicD :
    decode .rv64 .all 0x140332AF = .ok (.lrD 5 6 true false) ∧
    decode .rv64 .all 0x187332AF = .ok (.scD 5 7 6 false false) ∧
    decode .rv64 .all 0x087332AF = .ok (.amoswapD 5 7 6 false false) ∧
    decode .rv64 .all 0x007332AF = .ok (.amoaddD 5 7 6 false false) ∧
    decode .rv64 .all 0x207332AF = .ok (.amoxorD 5 7 6 false false) ∧
    decode .rv64 .all 0x607332AF = .ok (.amoandD 5 7 6 false false) ∧
    decode .rv64 .all 0x407332AF = .ok (.amoorD 5 7 6 false false) ∧
    decode .rv64 .all 0x807332AF = .ok (.amominD 5 7 6 false false) ∧
    decode .rv64 .all 0xA07332AF = .ok (.amomaxD 5 7 6 false false) ∧
    decode .rv64 .all 0xC07332AF = .ok (.amominuD 5 7 6 false false) ∧
    decode .rv64 .all 0xE07332AF = .ok (.amomaxuD 5 7 6 false false) := by decide

theorem test_decode_floatMemoryS :
    decode .rv64 .all 0x00832087 = .ok (.flw 1 6 8) ∧
    decode .rv64 .all 0x00232427 = .ok (.fsw 2 6 8) := by decide

theorem test_decode_fusedS :
    decode .rv64 .all 0x203100C3 = .ok (.fmaddS 1 2 3 4 0) ∧
    decode .rv64 .all 0x203100C7 = .ok (.fmsubS 1 2 3 4 0) ∧
    decode .rv64 .all 0x203100CB = .ok (.fnmsubS 1 2 3 4 0) ∧
    decode .rv64 .all 0x203100CF = .ok (.fnmaddS 1 2 3 4 0) := by decide

theorem test_decode_arithS :
    decode .rv64 .all 0x003170D3 = .ok (.faddS 1 2 3 7) ∧
    decode .rv64 .all 0x083170D3 = .ok (.fsubS 1 2 3 7) ∧
    decode .rv64 .all 0x103170D3 = .ok (.fmulS 1 2 3 7) ∧
    decode .rv64 .all 0x183170D3 = .ok (.fdivS 1 2 3 7) ∧
    decode .rv64 .all 0x580170D3 = .ok (.fsqrtS 1 2 7) := by decide

theorem test_decode_signS :
    decode .rv64 .all 0x203100D3 = .ok (.fsgnjS 1 2 3) ∧
    decode .rv64 .all 0x203110D3 = .ok (.fsgnjnS 1 2 3) ∧
    decode .rv64 .all 0x203120D3 = .ok (.fsgnjxS 1 2 3) ∧
    decode .rv64 .all 0x283100D3 = .ok (.fminS 1 2 3) ∧
    decode .rv64 .all 0x283110D3 = .ok (.fmaxS 1 2 3) := by decide

theorem test_decode_convertS :
    decode .rv64 .all 0xC00112D3 = .ok (.fcvtWS 5 2 1) ∧
    decode .rv64 .all 0xC01112D3 = .ok (.fcvtWUS 5 2 1) ∧
    decode .rv64 .all 0xE00102D3 = .ok (.fmvXW 5 2) ∧
    decode .rv64 .all 0xD00370D3 = .ok (.fcvtSW 1 6 7) ∧
    decode .rv64 .all 0xD01370D3 = .ok (.fcvtSWU 1 6 7) ∧
    decode .rv64 .all 0xF00300D3 = .ok (.fmvWX 1 6) ∧
    decode .rv64 .all 0xC02112D3 = .ok (.fcvtLS 5 2 1) ∧
    decode .rv64 .all 0xC03112D3 = .ok (.fcvtLUS 5 2 1) ∧
    decode .rv64 .all 0xD02370D3 = .ok (.fcvtSL 1 6 7) ∧
    decode .rv64 .all 0xD03370D3 = .ok (.fcvtSLU 1 6 7) := by decide

theorem test_decode_compareS :
    decode .rv64 .all 0xA03122D3 = .ok (.feqS 5 2 3) ∧
    decode .rv64 .all 0xA03112D3 = .ok (.fltS 5 2 3) ∧
    decode .rv64 .all 0xA03102D3 = .ok (.fleS 5 2 3) ∧
    decode .rv64 .all 0xE00112D3 = .ok (.fclassS 5 2) := by decide

theorem test_decode_floatMemoryD :
    decode .rv64 .all 0x00833087 = .ok (.fld 1 6 8) ∧
    decode .rv64 .all 0x00233427 = .ok (.fsd 2 6 8) := by decide

theorem test_decode_fusedD :
    decode .rv64 .all 0x223100C3 = .ok (.fmaddD 1 2 3 4 0) ∧
    decode .rv64 .all 0x223100C7 = .ok (.fmsubD 1 2 3 4 0) ∧
    decode .rv64 .all 0x223100CB = .ok (.fnmsubD 1 2 3 4 0) ∧
    decode .rv64 .all 0x223100CF = .ok (.fnmaddD 1 2 3 4 0) := by decide

theorem test_decode_arithD :
    decode .rv64 .all 0x023170D3 = .ok (.faddD 1 2 3 7) ∧
    decode .rv64 .all 0x0A3170D3 = .ok (.fsubD 1 2 3 7) ∧
    decode .rv64 .all 0x123170D3 = .ok (.fmulD 1 2 3 7) ∧
    decode .rv64 .all 0x1A3170D3 = .ok (.fdivD 1 2 3 7) ∧
    decode .rv64 .all 0x5A0170D3 = .ok (.fsqrtD 1 2 7) := by decide

theorem test_decode_signD :
    decode .rv64 .all 0x223100D3 = .ok (.fsgnjD 1 2 3) ∧
    decode .rv64 .all 0x223110D3 = .ok (.fsgnjnD 1 2 3) ∧
    decode .rv64 .all 0x223120D3 = .ok (.fsgnjxD 1 2 3) ∧
    decode .rv64 .all 0x2A3100D3 = .ok (.fminD 1 2 3) ∧
    decode .rv64 .all 0x2A3110D3 = .ok (.fmaxD 1 2 3) := by decide

theorem test_decode_convertD :
    decode .rv64 .all 0x401170D3 = .ok (.fcvtSD 1 2 7) ∧
    decode .rv64 .all 0x420100D3 = .ok (.fcvtDS 1 2 0) ∧
    decode .rv64 .all 0xC20112D3 = .ok (.fcvtWD 5 2 1) ∧
    decode .rv64 .all 0xC21112D3 = .ok (.fcvtWUD 5 2 1) ∧
    decode .rv64 .all 0xD20300D3 = .ok (.fcvtDW 1 6 0) ∧
    decode .rv64 .all 0xD21300D3 = .ok (.fcvtDWU 1 6 0) ∧
    decode .rv64 .all 0xC22112D3 = .ok (.fcvtLD 5 2 1) ∧
    decode .rv64 .all 0xC23112D3 = .ok (.fcvtLUD 5 2 1) ∧
    decode .rv64 .all 0xE20102D3 = .ok (.fmvXD 5 2) ∧
    decode .rv64 .all 0xD22370D3 = .ok (.fcvtDL 1 6 7) ∧
    decode .rv64 .all 0xD23370D3 = .ok (.fcvtDLU 1 6 7) ∧
    decode .rv64 .all 0xF20300D3 = .ok (.fmvDX 1 6) := by decide

theorem test_decode_compareD :
    decode .rv64 .all 0xA23122D3 = .ok (.feqD 5 2 3) ∧
    decode .rv64 .all 0xA23112D3 = .ok (.fltD 5 2 3) ∧
    decode .rv64 .all 0xA23102D3 = .ok (.fleD 5 2 3) ∧
    decode .rv64 .all 0xE20112D3 = .ok (.fclassD 5 2) := by decide

/-! ### One step: the results of the Example lines -/

theorem test_step_jumps :
    xAfter (start .rv32 [] [] []) 0x123452B7 5 = some 0x12345000 ∧
    xAfter (atPc 0x80000000 (start .rv32 [] [] [])) 0x00001297 5 = some 0x80001000 ∧
    xAfter (start .rv32 [] [] []) 0x008000EF 1 = some 0x1004 ∧
    pcAfter (start .rv32 [] [] []) 0x008000EF = some 0x1008 := by decide

theorem test_step_branches :
    xAfter (start .rv32 [(6, 0x2001)] [] []) 0x004300E7 1 = some 0x1004 ∧
    pcAfter (start .rv32 [(6, 0x2001)] [] []) 0x004300E7 = some 0x2004 ∧
    pcAfter (start .rv32 [(5, 7), (6, 7)] [] []) 0x00628863 = some 0x1010 ∧
    pcAfter (start .rv32 [(5, 1), (6, 0)] [] []) 0x00629863 = some 0x1010 ∧
    pcAfter (start .rv32 [(5, 0xffffffff), (6, 0)] [] []) 0x0062C863 = some 0x1010 ∧
    pcAfter (start .rv32 [(5, 0xffffffff), (6, 0)] [] []) 0x0062D863 = some 0x1004 ∧
    pcAfter (start .rv32 [(5, 0xffffffff), (6, 0)] [] []) 0x0062E863 = some 0x1004 ∧
    pcAfter (start .rv32 [(5, 0xffffffff), (6, 0)] [] []) 0x0062F863 = some 0x1010 := by decide

theorem test_step_loads :
    xAfter (start .rv32 [(6, 0x2000)] [] [(8196, 128)]) 0x00430283 5 = some 0xffffff80 ∧
    xAfter (start .rv32 [(6, 0x2000)] [] [(8196, 52), (8197, 146)]) 0x00431283 5 = some 0xffff9234 ∧
    xAfter (start .rv32 [(6, 0x2000)] [] [(8196, 120), (8197, 86), (8198, 52), (8199, 18)]) 0x00432283 5 = some 0x12345678 ∧
    xAfter (start .rv32 [(6, 0x2000)] [] [(8196, 128)]) 0x00434283 5 = some 128 ∧
    xAfter (start .rv32 [(6, 0x2000)] [] [(8196, 52), (8197, 146)]) 0x00435283 5 = some 0x9234 := by decide

theorem test_step_stores :
    memAfter (start .rv32 [(6, 0x2000), (7, 0x12345678)] [] []) 0x00730223 0x2004 1 = some [120] ∧
    memAfter (start .rv32 [(6, 0x2000), (7, 0x12345678)] [] []) 0x00731223 0x2004 2 = some [120, 86] ∧
    memAfter (start .rv32 [(6, 0x2000), (7, 0x12345678)] [] []) 0x00732223 0x2004 4 = some [120, 86, 52, 18] := by decide

theorem test_step_immediates :
    xAfter (start .rv32 [(6, 7)] [] []) 0x00130293 5 = some 8 ∧
    xAfter (start .rv32 [(6, 0xffffffff)] [] []) 0x00132293 5 = some 1 ∧
    xAfter (start .rv32 [(6, 0)] [] []) 0x00133293 5 = some 1 ∧
    xAfter (start .rv32 [(6, 255)] [] []) 0x00134293 5 = some 254 ∧
    xAfter (start .rv32 [(6, 240)] [] []) 0x00136293 5 = some 241 ∧
    xAfter (start .rv32 [(6, 255)] [] []) 0x00137293 5 = some 1 ∧
    xAfter (start .rv32 [(6, 1)] [] []) 0x00331293 5 = some 8 ∧
    xAfter (start .rv32 [(6, 0x80000000)] [] []) 0x00335293 5 = some 0x10000000 ∧
    xAfter (start .rv32 [(6, 0x80000000)] [] []) 0x40335293 5 = some 0xf0000000 := by decide

theorem test_step_registers :
    xAfter (start .rv32 [(6, 7), (7, 8)] [] []) 0x007302B3 5 = some 15 ∧
    xAfter (start .rv32 [(6, 7), (7, 8)] [] []) 0x407302B3 5 = some 0xffffffff ∧
    xAfter (start .rv32 [(6, 1), (7, 35)] [] []) 0x007312B3 5 = some 8 ∧
    xAfter (start .rv32 [(6, 0xffffffff), (7, 0)] [] []) 0x007322B3 5 = some 1 ∧
    xAfter (start .rv32 [(6, 0xffffffff), (7, 0)] [] []) 0x007332B3 5 = some 0 ∧
    xAfter (start .rv32 [(6, 240), (7, 255)] [] []) 0x007342B3 5 = some 15 ∧
    xAfter (start .rv32 [(6, 128), (7, 4)] [] []) 0x007352B3 5 = some 8 ∧
    xAfter (start .rv32 [(6, 0x80000000), (7, 4)] [] []) 0x407352B3 5 = some 0xf8000000 ∧
    xAfter (start .rv32 [(6, 240), (7, 15)] [] []) 0x007362B3 5 = some 255 ∧
    xAfter (start .rv32 [(6, 240), (7, 255)] [] []) 0x007372B3 5 = some 240 := by decide

theorem test_step_system :
    pcAfter (start .rv32 [] [] []) 0x0330000F = some 0x1004 ∧
    pcAfter (start .rv32 [] [] []) 0x0000100F = some 0x1004 := by decide

theorem test_step_csrs :
    xAfter (withCsr 1 1 (start .rv32 [(6, 64)] [] [])) 0x003312F3 5 = some 33 ∧
    csrAfter (withCsr 1 1 (start .rv32 [(6, 64)] [] [])) 0x003312F3 2 = some 2 ∧
    csrAfter (withCsr 1 1 (start .rv32 [(6, 64)] [] [])) 0x003312F3 1 = some 0 ∧
    xAfter (withCsr 0 16 (start .rv32 [] [] [])) 0x001022F3 5 = some 16 ∧
    csrAfter (withCsr 0 16 (start .rv32 [] [] [])) 0x001022F3 1 = some 16 ∧
    xAfter (withCsr 0 31 (start .rv32 [(6, 1)] [] [])) 0x001332F3 5 = some 31 ∧
    csrAfter (withCsr 0 31 (start .rv32 [(6, 1)] [] [])) 0x001332F3 1 = some 30 ∧
    csrAfter (withCsr 0 5 (start .rv32 [] [] [])) 0x00105073 1 = some 0 ∧
    xAfter (start .rv32 [] [] []) 0x0020E2F3 5 = some 0 ∧
    csrAfter (start .rv32 [] [] []) 0x0020E2F3 2 = some 1 ∧
    xAfter (withCsr 0 31 (start .rv32 [] [] [])) 0x001FF2F3 5 = some 31 ∧
    csrAfter (withCsr 0 31 (start .rv32 [] [] [])) 0x001FF2F3 1 = some 0 := by decide

theorem test_step_rv64_1 :
    xAfter (start .rv64 [(6, 0x2000)] [] [(8196, 120), (8197, 86), (8198, 52), (8199, 146)]) 0x00436283 5 = some 0x92345678 ∧
    xAfter (start .rv64 [(6, 0x2000)] [] [(8200, 1), (8201, 2), (8202, 3), (8203, 4), (8204, 5), (8205, 6), (8206, 7), (8207, 8)]) 0x00833283 5 = some 0x807060504030201 ∧
    memAfter (start .rv64 [(6, 0x2000), (7, 0x807060504030201)] [] []) 0x00733423 0x2008 8 = some [1, 2, 3, 4, 5, 6, 7, 8] ∧
    xAfter (start .rv64 [(6, 1)] [] []) 0x02031293 5 = some 0x100000000 ∧
    xAfter (start .rv64 [(6, 0x8000000000000000)] [] []) 0x02035293 5 = some 0x80000000 ∧
    xAfter (start .rv64 [(6, 0x8000000000000000)] [] []) 0x42035293 5 = some 0xffffffff80000000 ∧
    xAfter (start .rv64 [(6, 0x7fffffff)] [] []) 0x0013029B 5 = some 0xffffffff80000000 ∧
    xAfter (start .rv64 [(6, 0x10000000)] [] []) 0x0033129B 5 = some 0xffffffff80000000 ∧
    xAfter (start .rv64 [(6, 0xffffffff80000000)] [] []) 0x0033529B 5 = some 0x10000000 ∧
    xAfter (start .rv64 [(6, 0x80000000)] [] []) 0x4033529B 5 = some 0xfffffffff0000000 ∧
    xAfter (start .rv64 [(6, 0x7fffffff), (7, 1)] [] []) 0x007302BB 5 = some 0xffffffff80000000 ∧
    xAfter (start .rv64 [(6, 0), (7, 1)] [] []) 0x407302BB 5 = some 0xffffffffffffffff := by decide

theorem test_step_rv64_2 :
    xAfter (start .rv64 [(6, 1), (7, 31)] [] []) 0x007312BB 5 = some 0xffffffff80000000 ∧
    xAfter (start .rv64 [(6, 0x80000000), (7, 31)] [] []) 0x007352BB 5 = some 1 ∧
    xAfter (start .rv64 [(6, 0x80000000), (7, 31)] [] []) 0x407352BB 5 = some 0xffffffffffffffff := by decide

theorem test_step_muldiv :
    xAfter (start .rv64 [(6, 7), (7, 6)] [] []) 0x027302B3 5 = some 42 ∧
    xAfter (start .rv64 [(6, 0xffffffffffffffff), (7, 0xffffffffffffffff)] [] []) 0x027312B3 5 = some 0 ∧
    xAfter (start .rv64 [(6, 0xffffffffffffffff), (7, 0xffffffffffffffff)] [] []) 0x027322B3 5 = some 0xffffffffffffffff ∧
    xAfter (start .rv64 [(6, 0xffffffffffffffff), (7, 0xffffffffffffffff)] [] []) 0x027332B3 5 = some 0xfffffffffffffffe ∧
    xAfter (start .rv64 [(6, 0xfffffffffffffff9), (7, 2)] [] []) 0x027342B3 5 = some 0xfffffffffffffffd ∧
    xAfter (start .rv64 [(6, 7), (7, 2)] [] []) 0x027352B3 5 = some 3 ∧
    xAfter (start .rv64 [(6, 0xfffffffffffffff9), (7, 2)] [] []) 0x027362B3 5 = some 0xffffffffffffffff ∧
    xAfter (start .rv64 [(6, 7), (7, 2)] [] []) 0x027372B3 5 = some 1 := by decide

theorem test_step_muldivWord :
    xAfter (start .rv64 [(6, 0x10000), (7, 0x8000)] [] []) 0x027302BB 5 = some 0xffffffff80000000 ∧
    xAfter (start .rv64 [(6, 0xfffffffffffffff9), (7, 2)] [] []) 0x027342BB 5 = some 0xfffffffffffffffd ∧
    xAfter (start .rv64 [(6, 0xffffffff), (7, 1)] [] []) 0x027352BB 5 = some 0xffffffffffffffff ∧
    xAfter (start .rv64 [(6, 0xfffffffffffffff9), (7, 2)] [] []) 0x027362BB 5 = some 0xffffffffffffffff ∧
    xAfter (start .rv64 [(6, 7), (7, 2)] [] []) 0x027372BB 5 = some 1 := by decide

theorem test_step_atomicW_1 :
    xAfter (start .rv64 [(6, 0x2000)] [] [(8192, 7), (8193, 0), (8194, 0), (8195, 0)]) 0x140322AF 5 = some 7 ∧
    xAfter (paired 4 (start .rv64 [(6, 0x2000), (7, 8)] [] [])) 0x187322AF 5 = some 0 ∧
    memAfter (paired 4 (start .rv64 [(6, 0x2000), (7, 8)] [] [])) 0x187322AF 0x2000 4 = some [8, 0, 0, 0] ∧
    xAfter (start .rv64 [(6, 0x2000), (7, 5)] [] [(8192, 3), (8193, 0), (8194, 0), (8195, 0)]) 0x087322AF 5 = some 3 ∧
    memAfter (start .rv64 [(6, 0x2000), (7, 5)] [] [(8192, 3), (8193, 0), (8194, 0), (8195, 0)]) 0x087322AF 0x2000 4 = some [5, 0, 0, 0] ∧
    xAfter (start .rv64 [(6, 0x2000), (7, 5)] [] [(8192, 3), (8193, 0), (8194, 0), (8195, 0)]) 0x007322AF 5 = some 3 ∧
    memAfter (start .rv64 [(6, 0x2000), (7, 5)] [] [(8192, 3), (8193, 0), (8194, 0), (8195, 0)]) 0x007322AF 0x2000 4 = some [8, 0, 0, 0] ∧
    xAfter (start .rv64 [(6, 0x2000), (7, 5)] [] [(8192, 3), (8193, 0), (8194, 0), (8195, 0)]) 0x207322AF 5 = some 3 ∧
    memAfter (start .rv64 [(6, 0x2000), (7, 5)] [] [(8192, 3), (8193, 0), (8194, 0), (8195, 0)]) 0x207322AF 0x2000 4 = some [6, 0, 0, 0] ∧
    xAfter (start .rv64 [(6, 0x2000), (7, 5)] [] [(8192, 3), (8193, 0), (8194, 0), (8195, 0)]) 0x607322AF 5 = some 3 ∧
    memAfter (start .rv64 [(6, 0x2000), (7, 5)] [] [(8192, 3), (8193, 0), (8194, 0), (8195, 0)]) 0x607322AF 0x2000 4 = some [1, 0, 0, 0] ∧
    xAfter (start .rv64 [(6, 0x2000), (7, 5)] [] [(8192, 3), (8193, 0), (8194, 0), (8195, 0)]) 0x407322AF 5 = some 3 := by decide

theorem test_step_atomicW_2 :
    memAfter (start .rv64 [(6, 0x2000), (7, 5)] [] [(8192, 3), (8193, 0), (8194, 0), (8195, 0)]) 0x407322AF 0x2000 4 = some [7, 0, 0, 0] ∧
    xAfter (start .rv64 [(6, 0x2000), (7, 5)] [] [(8192, 255), (8193, 255), (8194, 255), (8195, 255)]) 0x807322AF 5 = some 0xffffffffffffffff ∧
    memAfter (start .rv64 [(6, 0x2000), (7, 5)] [] [(8192, 255), (8193, 255), (8194, 255), (8195, 255)]) 0x807322AF 0x2000 4 = some [255, 255, 255, 255] ∧
    xAfter (start .rv64 [(6, 0x2000), (7, 5)] [] [(8192, 255), (8193, 255), (8194, 255), (8195, 255)]) 0xA07322AF 5 = some 0xffffffffffffffff ∧
    memAfter (start .rv64 [(6, 0x2000), (7, 5)] [] [(8192, 255), (8193, 255), (8194, 255), (8195, 255)]) 0xA07322AF 0x2000 4 = some [5, 0, 0, 0] ∧
    xAfter (start .rv64 [(6, 0x2000), (7, 5)] [] [(8192, 255), (8193, 255), (8194, 255), (8195, 255)]) 0xC07322AF 5 = some 0xffffffffffffffff ∧
    memAfter (start .rv64 [(6, 0x2000), (7, 5)] [] [(8192, 255), (8193, 255), (8194, 255), (8195, 255)]) 0xC07322AF 0x2000 4 = some [5, 0, 0, 0] ∧
    xAfter (start .rv64 [(6, 0x2000), (7, 5)] [] [(8192, 255), (8193, 255), (8194, 255), (8195, 255)]) 0xE07322AF 5 = some 0xffffffffffffffff ∧
    memAfter (start .rv64 [(6, 0x2000), (7, 5)] [] [(8192, 255), (8193, 255), (8194, 255), (8195, 255)]) 0xE07322AF 0x2000 4 = some [255, 255, 255, 255] := by decide

theorem test_step_atomicD_1 :
    xAfter (start .rv64 [(6, 0x2000)] [] [(8192, 7), (8193, 0), (8194, 0), (8195, 0), (8196, 0), (8197, 0), (8198, 0), (8199, 0)]) 0x140332AF 5 = some 7 ∧
    xAfter (paired 8 (start .rv64 [(6, 0x2000), (7, 8)] [] [])) 0x187332AF 5 = some 0 ∧
    memAfter (paired 8 (start .rv64 [(6, 0x2000), (7, 8)] [] [])) 0x187332AF 0x2000 8 = some [8, 0, 0, 0, 0, 0, 0, 0] ∧
    xAfter (start .rv64 [(6, 0x2000), (7, 5)] [] [(8192, 3), (8193, 0), (8194, 0), (8195, 0), (8196, 0), (8197, 0), (8198, 0), (8199, 0)]) 0x087332AF 5 = some 3 ∧
    memAfter (start .rv64 [(6, 0x2000), (7, 5)] [] [(8192, 3), (8193, 0), (8194, 0), (8195, 0), (8196, 0), (8197, 0), (8198, 0), (8199, 0)]) 0x087332AF 0x2000 8 = some [5, 0, 0, 0, 0, 0, 0, 0] ∧
    xAfter (start .rv64 [(6, 0x2000), (7, 5)] [] [(8192, 3), (8193, 0), (8194, 0), (8195, 0), (8196, 0), (8197, 0), (8198, 0), (8199, 0)]) 0x007332AF 5 = some 3 ∧
    memAfter (start .rv64 [(6, 0x2000), (7, 5)] [] [(8192, 3), (8193, 0), (8194, 0), (8195, 0), (8196, 0), (8197, 0), (8198, 0), (8199, 0)]) 0x007332AF 0x2000 8 = some [8, 0, 0, 0, 0, 0, 0, 0] ∧
    xAfter (start .rv64 [(6, 0x2000), (7, 5)] [] [(8192, 3), (8193, 0), (8194, 0), (8195, 0), (8196, 0), (8197, 0), (8198, 0), (8199, 0)]) 0x207332AF 5 = some 3 ∧
    memAfter (start .rv64 [(6, 0x2000), (7, 5)] [] [(8192, 3), (8193, 0), (8194, 0), (8195, 0), (8196, 0), (8197, 0), (8198, 0), (8199, 0)]) 0x207332AF 0x2000 8 = some [6, 0, 0, 0, 0, 0, 0, 0] ∧
    xAfter (start .rv64 [(6, 0x2000), (7, 5)] [] [(8192, 3), (8193, 0), (8194, 0), (8195, 0), (8196, 0), (8197, 0), (8198, 0), (8199, 0)]) 0x607332AF 5 = some 3 ∧
    memAfter (start .rv64 [(6, 0x2000), (7, 5)] [] [(8192, 3), (8193, 0), (8194, 0), (8195, 0), (8196, 0), (8197, 0), (8198, 0), (8199, 0)]) 0x607332AF 0x2000 8 = some [1, 0, 0, 0, 0, 0, 0, 0] ∧
    xAfter (start .rv64 [(6, 0x2000), (7, 5)] [] [(8192, 3), (8193, 0), (8194, 0), (8195, 0), (8196, 0), (8197, 0), (8198, 0), (8199, 0)]) 0x407332AF 5 = some 3 := by decide

theorem test_step_atomicD_2 :
    memAfter (start .rv64 [(6, 0x2000), (7, 5)] [] [(8192, 3), (8193, 0), (8194, 0), (8195, 0), (8196, 0), (8197, 0), (8198, 0), (8199, 0)]) 0x407332AF 0x2000 8 = some [7, 0, 0, 0, 0, 0, 0, 0] ∧
    xAfter (start .rv64 [(6, 0x2000), (7, 5)] [] [(8192, 255), (8193, 255), (8194, 255), (8195, 255), (8196, 255), (8197, 255), (8198, 255), (8199, 255)]) 0x807332AF 5 = some 0xffffffffffffffff ∧
    memAfter (start .rv64 [(6, 0x2000), (7, 5)] [] [(8192, 255), (8193, 255), (8194, 255), (8195, 255), (8196, 255), (8197, 255), (8198, 255), (8199, 255)]) 0x807332AF 0x2000 8 = some [255, 255, 255, 255, 255, 255, 255, 255] ∧
    xAfter (start .rv64 [(6, 0x2000), (7, 5)] [] [(8192, 255), (8193, 255), (8194, 255), (8195, 255), (8196, 255), (8197, 255), (8198, 255), (8199, 255)]) 0xA07332AF 5 = some 0xffffffffffffffff ∧
    memAfter (start .rv64 [(6, 0x2000), (7, 5)] [] [(8192, 255), (8193, 255), (8194, 255), (8195, 255), (8196, 255), (8197, 255), (8198, 255), (8199, 255)]) 0xA07332AF 0x2000 8 = some [5, 0, 0, 0, 0, 0, 0, 0] ∧
    xAfter (start .rv64 [(6, 0x2000), (7, 5)] [] [(8192, 255), (8193, 255), (8194, 255), (8195, 255), (8196, 255), (8197, 255), (8198, 255), (8199, 255)]) 0xC07332AF 5 = some 0xffffffffffffffff ∧
    memAfter (start .rv64 [(6, 0x2000), (7, 5)] [] [(8192, 255), (8193, 255), (8194, 255), (8195, 255), (8196, 255), (8197, 255), (8198, 255), (8199, 255)]) 0xC07332AF 0x2000 8 = some [5, 0, 0, 0, 0, 0, 0, 0] ∧
    xAfter (start .rv64 [(6, 0x2000), (7, 5)] [] [(8192, 255), (8193, 255), (8194, 255), (8195, 255), (8196, 255), (8197, 255), (8198, 255), (8199, 255)]) 0xE07332AF 5 = some 0xffffffffffffffff ∧
    memAfter (start .rv64 [(6, 0x2000), (7, 5)] [] [(8192, 255), (8193, 255), (8194, 255), (8195, 255), (8196, 255), (8197, 255), (8198, 255), (8199, 255)]) 0xE07332AF 0x2000 8 = some [255, 255, 255, 255, 255, 255, 255, 255] := by decide

theorem test_step_floatMemoryS :
    fAfter (start .rv64 [(6, 0x2000)] [] [(8200, 0), (8201, 0), (8202, 128), (8203, 63)]) 0x00832087 1 = some 0xffffffff3f800000 ∧
    memAfter (start .rv64 [(6, 0x2000)] [(2, 0xffffffff3f800000)] []) 0x00232427 0x2008 4 = some [0, 0, 128, 63] := by decide

theorem test_step_fusedS :
    fAfter (start .rv64 [] [(2, 0xffffffff40000000), (3, 0xffffffff40400000), (4, 0xffffffff3f800000)] []) 0x203100C3 1 = some 0xffffffff40e00000 ∧
    csrAfter (start .rv64 [] [(2, 0xffffffff40000000), (3, 0xffffffff40400000), (4, 0xffffffff3f800000)] []) 0x203100C3 1 = some 0 ∧
    fAfter (start .rv64 [] [(2, 0xffffffff40000000), (3, 0xffffffff40400000), (4, 0xffffffff3f800000)] []) 0x203100C7 1 = some 0xffffffff40a00000 ∧
    csrAfter (start .rv64 [] [(2, 0xffffffff40000000), (3, 0xffffffff40400000), (4, 0xffffffff3f800000)] []) 0x203100C7 1 = some 0 ∧
    fAfter (start .rv64 [] [(2, 0xffffffff40000000), (3, 0xffffffff40400000), (4, 0xffffffff3f800000)] []) 0x203100CB 1 = some 0xffffffffc0a00000 ∧
    csrAfter (start .rv64 [] [(2, 0xffffffff40000000), (3, 0xffffffff40400000), (4, 0xffffffff3f800000)] []) 0x203100CB 1 = some 0 ∧
    fAfter (start .rv64 [] [(2, 0xffffffff40000000), (3, 0xffffffff40400000), (4, 0xffffffff3f800000)] []) 0x203100CF 1 = some 0xffffffffc0e00000 ∧
    csrAfter (start .rv64 [] [(2, 0xffffffff40000000), (3, 0xffffffff40400000), (4, 0xffffffff3f800000)] []) 0x203100CF 1 = some 0 := by decide

theorem test_step_arithS :
    fAfter (start .rv64 [] [(2, 0xffffffff3f800000), (3, 0xffffffff40000000)] []) 0x003170D3 1 = some 0xffffffff40400000 ∧
    csrAfter (start .rv64 [] [(2, 0xffffffff3f800000), (3, 0xffffffff40000000)] []) 0x003170D3 1 = some 0 ∧
    fAfter (start .rv64 [] [(2, 0xffffffff3f800000), (3, 0xffffffff40000000)] []) 0x083170D3 1 = some 0xffffffffbf800000 ∧
    csrAfter (start .rv64 [] [(2, 0xffffffff3f800000), (3, 0xffffffff40000000)] []) 0x083170D3 1 = some 0 ∧
    fAfter (start .rv64 [] [(2, 0xffffffff3fc00000), (3, 0xffffffff40000000)] []) 0x103170D3 1 = some 0xffffffff40400000 ∧
    csrAfter (start .rv64 [] [(2, 0xffffffff3fc00000), (3, 0xffffffff40000000)] []) 0x103170D3 1 = some 0 ∧
    fAfter (start .rv64 [] [(2, 0xffffffff3f800000), (3, 0xffffffff40000000)] []) 0x183170D3 1 = some 0xffffffff3f000000 ∧
    csrAfter (start .rv64 [] [(2, 0xffffffff3f800000), (3, 0xffffffff40000000)] []) 0x183170D3 1 = some 0 ∧
    fAfter (start .rv64 [] [(2, 0xffffffff40800000)] []) 0x580170D3 1 = some 0xffffffff40000000 ∧
    csrAfter (start .rv64 [] [(2, 0xffffffff40800000)] []) 0x580170D3 1 = some 0 := by decide

theorem test_step_signS :
    fAfter (start .rv64 [] [(2, 0xffffffff3f800000), (3, 0xffffffffc0000000)] []) 0x203100D3 1 = some 0xffffffffbf800000 ∧
    fAfter (start .rv64 [] [(2, 0xffffffff3f800000), (3, 0xffffffffc0000000)] []) 0x203110D3 1 = some 0xffffffff3f800000 ∧
    fAfter (start .rv64 [] [(2, 0xffffffffbf800000), (3, 0xffffffffc0000000)] []) 0x203120D3 1 = some 0xffffffff3f800000 ∧
    fAfter (start .rv64 [] [(2, 0xffffffff3f800000), (3, 0xffffffff40000000)] []) 0x283100D3 1 = some 0xffffffff3f800000 ∧
    csrAfter (start .rv64 [] [(2, 0xffffffff3f800000), (3, 0xffffffff40000000)] []) 0x283100D3 1 = some 0 ∧
    fAfter (start .rv64 [] [(2, 0xffffffff3f800000), (3, 0xffffffff40000000)] []) 0x283110D3 1 = some 0xffffffff40000000 ∧
    csrAfter (start .rv64 [] [(2, 0xffffffff3f800000), (3, 0xffffffff40000000)] []) 0x283110D3 1 = some 0 := by decide

theorem test_step_convertS_1 :
    xAfter (start .rv64 [] [(2, 0xffffffff40200000)] []) 0xC00112D3 5 = some 2 ∧
    csrAfter (start .rv64 [] [(2, 0xffffffff40200000)] []) 0xC00112D3 1 = some 1 ∧
    xAfter (start .rv64 [] [(2, 0xffffffff40200000)] []) 0xC01112D3 5 = some 2 ∧
    csrAfter (start .rv64 [] [(2, 0xffffffff40200000)] []) 0xC01112D3 1 = some 1 ∧
    xAfter (start .rv64 [] [(2, 0xffffffff3f800000)] []) 0xE00102D3 5 = some 0x3f800000 ∧
    fAfter (start .rv64 [(6, 3)] [] []) 0xD00370D3 1 = some 0xffffffff40400000 ∧
    fAfter (start .rv64 [(6, 3)] [] []) 0xD01370D3 1 = some 0xffffffff40400000 ∧
    fAfter (start .rv64 [(6, 0x3f800000)] [] []) 0xF00300D3 1 = some 0xffffffff3f800000 ∧
    xAfter (start .rv64 [] [(2, 0xffffffff40200000)] []) 0xC02112D3 5 = some 2 ∧
    csrAfter (start .rv64 [] [(2, 0xffffffff40200000)] []) 0xC02112D3 1 = some 1 ∧
    xAfter (start .rv64 [] [(2, 0xffffffff40200000)] []) 0xC03112D3 5 = some 2 ∧
    csrAfter (start .rv64 [] [(2, 0xffffffff40200000)] []) 0xC03112D3 1 = some 1 := by decide

theorem test_step_convertS_2 :
    fAfter (start .rv64 [(6, 3)] [] []) 0xD02370D3 1 = some 0xffffffff40400000 ∧
    fAfter (start .rv64 [(6, 3)] [] []) 0xD03370D3 1 = some 0xffffffff40400000 := by decide

theorem test_step_compareS :
    xAfter (start .rv64 [] [(2, 0xffffffff3f800000), (3, 0xffffffff3f800000)] []) 0xA03122D3 5 = some 1 ∧
    csrAfter (start .rv64 [] [(2, 0xffffffff3f800000), (3, 0xffffffff3f800000)] []) 0xA03122D3 1 = some 0 ∧
    xAfter (start .rv64 [] [(2, 0xffffffff3f800000), (3, 0xffffffff40000000)] []) 0xA03112D3 5 = some 1 ∧
    csrAfter (start .rv64 [] [(2, 0xffffffff3f800000), (3, 0xffffffff40000000)] []) 0xA03112D3 1 = some 0 ∧
    xAfter (start .rv64 [] [(2, 0xffffffff40000000), (3, 0xffffffff3f800000)] []) 0xA03102D3 5 = some 0 ∧
    csrAfter (start .rv64 [] [(2, 0xffffffff40000000), (3, 0xffffffff3f800000)] []) 0xA03102D3 1 = some 0 ∧
    xAfter (start .rv64 [] [(2, 0xffffffff3f800000)] []) 0xE00112D3 5 = some 64 := by decide

theorem test_step_floatMemoryD :
    fAfter (start .rv64 [(6, 0x2000)] [] [(8200, 0), (8201, 0), (8202, 0), (8203, 0), (8204, 0), (8205, 0), (8206, 240), (8207, 63)]) 0x00833087 1 = some 0x3ff0000000000000 ∧
    memAfter (start .rv64 [(6, 0x2000)] [(2, 0x3ff0000000000000)] []) 0x00233427 0x2008 8 = some [0, 0, 0, 0, 0, 0, 240, 63] := by decide

theorem test_step_fusedD :
    fAfter (start .rv64 [] [(2, 0x4000000000000000), (3, 0x4008000000000000), (4, 0x3ff0000000000000)] []) 0x223100C3 1 = some 0x401c000000000000 ∧
    csrAfter (start .rv64 [] [(2, 0x4000000000000000), (3, 0x4008000000000000), (4, 0x3ff0000000000000)] []) 0x223100C3 1 = some 0 ∧
    fAfter (start .rv64 [] [(2, 0x4000000000000000), (3, 0x4008000000000000), (4, 0x3ff0000000000000)] []) 0x223100C7 1 = some 0x4014000000000000 ∧
    csrAfter (start .rv64 [] [(2, 0x4000000000000000), (3, 0x4008000000000000), (4, 0x3ff0000000000000)] []) 0x223100C7 1 = some 0 ∧
    fAfter (start .rv64 [] [(2, 0x4000000000000000), (3, 0x4008000000000000), (4, 0x3ff0000000000000)] []) 0x223100CB 1 = some 0xc014000000000000 ∧
    csrAfter (start .rv64 [] [(2, 0x4000000000000000), (3, 0x4008000000000000), (4, 0x3ff0000000000000)] []) 0x223100CB 1 = some 0 ∧
    fAfter (start .rv64 [] [(2, 0x4000000000000000), (3, 0x4008000000000000), (4, 0x3ff0000000000000)] []) 0x223100CF 1 = some 0xc01c000000000000 ∧
    csrAfter (start .rv64 [] [(2, 0x4000000000000000), (3, 0x4008000000000000), (4, 0x3ff0000000000000)] []) 0x223100CF 1 = some 0 := by decide

theorem test_step_arithD :
    fAfter (start .rv64 [] [(2, 0x3ff0000000000000), (3, 0x4000000000000000)] []) 0x023170D3 1 = some 0x4008000000000000 ∧
    csrAfter (start .rv64 [] [(2, 0x3ff0000000000000), (3, 0x4000000000000000)] []) 0x023170D3 1 = some 0 ∧
    fAfter (start .rv64 [] [(2, 0x3ff0000000000000), (3, 0x4000000000000000)] []) 0x0A3170D3 1 = some 0xbff0000000000000 ∧
    csrAfter (start .rv64 [] [(2, 0x3ff0000000000000), (3, 0x4000000000000000)] []) 0x0A3170D3 1 = some 0 ∧
    fAfter (start .rv64 [] [(2, 0x3ff8000000000000), (3, 0x4000000000000000)] []) 0x123170D3 1 = some 0x4008000000000000 ∧
    csrAfter (start .rv64 [] [(2, 0x3ff8000000000000), (3, 0x4000000000000000)] []) 0x123170D3 1 = some 0 ∧
    fAfter (start .rv64 [] [(2, 0x3ff0000000000000), (3, 0x4000000000000000)] []) 0x1A3170D3 1 = some 0x3fe0000000000000 ∧
    csrAfter (start .rv64 [] [(2, 0x3ff0000000000000), (3, 0x4000000000000000)] []) 0x1A3170D3 1 = some 0 ∧
    fAfter (start .rv64 [] [(2, 0x4010000000000000)] []) 0x5A0170D3 1 = some 0x4000000000000000 ∧
    csrAfter (start .rv64 [] [(2, 0x4010000000000000)] []) 0x5A0170D3 1 = some 0 := by decide

theorem test_step_signD :
    fAfter (start .rv64 [] [(2, 0x3ff0000000000000), (3, 0xc000000000000000)] []) 0x223100D3 1 = some 0xbff0000000000000 ∧
    fAfter (start .rv64 [] [(2, 0x3ff0000000000000), (3, 0xc000000000000000)] []) 0x223110D3 1 = some 0x3ff0000000000000 ∧
    fAfter (start .rv64 [] [(2, 0xbff0000000000000), (3, 0xc000000000000000)] []) 0x223120D3 1 = some 0x3ff0000000000000 ∧
    fAfter (start .rv64 [] [(2, 0x3ff0000000000000), (3, 0x4000000000000000)] []) 0x2A3100D3 1 = some 0x3ff0000000000000 ∧
    csrAfter (start .rv64 [] [(2, 0x3ff0000000000000), (3, 0x4000000000000000)] []) 0x2A3100D3 1 = some 0 ∧
    fAfter (start .rv64 [] [(2, 0x3ff0000000000000), (3, 0x4000000000000000)] []) 0x2A3110D3 1 = some 0x4000000000000000 ∧
    csrAfter (start .rv64 [] [(2, 0x3ff0000000000000), (3, 0x4000000000000000)] []) 0x2A3110D3 1 = some 0 := by decide

theorem test_step_convertD_1 :
    fAfter (start .rv64 [] [(2, 0x3ff0000000000000)] []) 0x401170D3 1 = some 0xffffffff3f800000 ∧
    fAfter (start .rv64 [] [(2, 0xffffffff3f800000)] []) 0x420100D3 1 = some 0x3ff0000000000000 ∧
    xAfter (start .rv64 [] [(2, 0x4004000000000000)] []) 0xC20112D3 5 = some 2 ∧
    csrAfter (start .rv64 [] [(2, 0x4004000000000000)] []) 0xC20112D3 1 = some 1 ∧
    xAfter (start .rv64 [] [(2, 0x4004000000000000)] []) 0xC21112D3 5 = some 2 ∧
    csrAfter (start .rv64 [] [(2, 0x4004000000000000)] []) 0xC21112D3 1 = some 1 ∧
    fAfter (start .rv64 [(6, 3)] [] []) 0xD20300D3 1 = some 0x4008000000000000 ∧
    fAfter (start .rv64 [(6, 3)] [] []) 0xD21300D3 1 = some 0x4008000000000000 ∧
    xAfter (start .rv64 [] [(2, 0x4004000000000000)] []) 0xC22112D3 5 = some 2 ∧
    csrAfter (start .rv64 [] [(2, 0x4004000000000000)] []) 0xC22112D3 1 = some 1 ∧
    xAfter (start .rv64 [] [(2, 0x4004000000000000)] []) 0xC23112D3 5 = some 2 ∧
    csrAfter (start .rv64 [] [(2, 0x4004000000000000)] []) 0xC23112D3 1 = some 1 := by decide

theorem test_step_convertD_2 :
    xAfter (start .rv64 [] [(2, 0x3ff0000000000000)] []) 0xE20102D3 5 = some 0x3ff0000000000000 ∧
    fAfter (start .rv64 [(6, 3)] [] []) 0xD22370D3 1 = some 0x4008000000000000 ∧
    fAfter (start .rv64 [(6, 3)] [] []) 0xD23370D3 1 = some 0x4008000000000000 ∧
    fAfter (start .rv64 [(6, 0x3ff0000000000000)] [] []) 0xF20300D3 1 = some 0x3ff0000000000000 := by decide

theorem test_step_compareD :
    xAfter (start .rv64 [] [(2, 0x3ff0000000000000), (3, 0x3ff0000000000000)] []) 0xA23122D3 5 = some 1 ∧
    csrAfter (start .rv64 [] [(2, 0x3ff0000000000000), (3, 0x3ff0000000000000)] []) 0xA23122D3 1 = some 0 ∧
    xAfter (start .rv64 [] [(2, 0x3ff0000000000000), (3, 0x4000000000000000)] []) 0xA23112D3 5 = some 1 ∧
    csrAfter (start .rv64 [] [(2, 0x3ff0000000000000), (3, 0x4000000000000000)] []) 0xA23112D3 1 = some 0 ∧
    xAfter (start .rv64 [] [(2, 0x4000000000000000), (3, 0x3ff0000000000000)] []) 0xA23102D3 5 = some 0 ∧
    csrAfter (start .rv64 [] [(2, 0x4000000000000000), (3, 0x3ff0000000000000)] []) 0xA23102D3 1 = some 0 ∧
    xAfter (start .rv64 [] [(2, 0x3ff0000000000000)] []) 0xE20112D3 5 = some 64 := by decide

/-! ### Well-formedness: one ill-formed instruction for each check -/

theorem test_wf_refuses_row_of_other_xlen : ¬ WellFormed .rv32 .all (.ld 1 2 0) := fun h => absurd h.1 (by decide)
theorem test_wf_refuses_absent_group : ¬ WellFormed .rv64 { Ext.all with d := false } (.fld 1 2 0) :=
  fun h => absurd h.2.1 (by decide)
theorem test_wf_refuses_odd_offset : ¬ WellFormed .rv64 .all (.jal 1 3) := fun h => absurd h.2.2 (by decide)
theorem test_wf_accepts : WellFormed .rv64 .all (.jal 1 0x100000) := ⟨rfl, rfl, rfl⟩

/-! ### Stops, one for each fault and refusal -/

/-- A program of one word that no store has written, and no text. -/
def bare : State := { start .rv64 [] [] [] with hart := { Hart.start 0 0x1000 1 with pc := 0x1000 } }
/-- Without compressed instructions, misaligned accesses refused. -/
def strict (s : State) : State :=
  { s with params := { s.params with ext := { Ext.all with c := false }, misaligned := .refuse } }
/-- With one io byte. -/
def withIo (a : Nat) (s : State) : State := { s with params := { s.params with io := [(a, 1)] } }
/-- With some addresses fetched. -/
def withText (l : List Nat) (s : State) : State := { s with fetched := l }
/-- With a second hart. -/
def two (s : State) : State := { s with others := [Hart.start 1 0x3000 0] }

/-- The stop of a result, and its state. -/
def stopOf (r : Result) : Option Stop :=
  match r with
  | .next _ => none
  | .fault f => some (.fault f)
  | .refused q => some (.refused q)

def nextOf (r : Result) : Option State :=
  match r with
  | .next t => some t
  | _ => none

theorem test_stop_no_text : stopOf (step bare) = some (.fault .noInstruction) := by decide
theorem test_stop_no_row : stopOf (step (bare.withFetchWord 32 0x0000000B)) = some (.fault .noInstruction) := by decide
theorem test_stop_mret : stopOf (step (bare.withFetchWord 32 0x30200073)) = some (.fault .noInstruction) := by decide
theorem test_stop_compressed : stopOf (step (bare.withFetchWord 32 0)) = some (.refused .compressed) := by decide
theorem test_stop_reserved_rounding : stopOf (step (bare.withFetchWord 32 0x003150D3)) = some (.fault .reservedRounding) := by decide
theorem test_stop_csr : stopOf (step (bare.withFetchWord 32 0xC00022F3)) = some (.fault .csrNotHeld) := by decide
theorem test_stop_past_top :
    stopOf (step ((start .rv64 [(6, 0xFFFFFFFFFFFFFFF9)] [] []).withFetchWord 32 0x00432283)) = some (.fault .pastTop) := by decide
theorem test_stop_own_text : stopOf (step ((start .rv64 [(6, 0xFFD)] [] []).withFetchWord 32 0x00730223)) = some (.fault .storeToText) := by
  decide
theorem test_stop_misaligned_atomic :
    stopOf (step ((start .rv64 [(6, 0x2002)] [] []).withFetchWord 32 0x140322AF)) = some (.refused .misalignedAtomic) := by decide
theorem test_stop_misaligned_access :
    stopOf (step ((strict (start .rv64 [(6, 0x2001)] [] [])).withFetchWord 32 0x00432283)) = some (.refused .misalignedAccess) := by decide
theorem test_stop_io :
    stopOf (step ((withIo 0x2007 (start .rv64 [(6, 0x2000)] [] [])).withFetchWord 32 0x00432283)) = some (.refused .ioRegion) := by decide
theorem test_stop_target :
    stopOf (step ((strict (start .rv64 [] [] [])).withFetchWord 32 0x006000EF)) = some (.refused .targetMisaligned) := by decide

/-! ### Corners -/

/-- 42_m.md R274, R276: division by zero, and the overflowing quotient on RV32. -/
theorem test_divide_corners :
    xAfter (start .rv64 [(6, 7)] [] []) 0x027342B3 5 = some 0xFFFFFFFFFFFFFFFF ∧
    xAfter (start .rv64 [(6, 7)] [] []) 0x027362B3 5 = some 7 ∧
    xAfter (start .rv32 [(6, 0x80000000), (7, 0xFFFFFFFF)] [] []) 0x027342B3 5 = some 0x80000000 ∧
    xAfter (start .rv32 [(6, 0x80000000), (7, 0xFFFFFFFF)] [] []) 0x027362B3 5 = some 0 := by decide

/-- 44_f.md header: a single-precision operand that is not boxed is the canonical NaN. -/
theorem test_unboxed_operand :
    fAfter (start .rv64 [] [(2, 0x3F800000), (3, 0xFFFFFFFF3F800000)] []) 0x003170D3 1 = some 0xFFFFFFFF7FC00000 := by decide

/-- 43_a.md R291: an SC with no LR outstanding fails, writes 1 and stores nothing. -/
theorem test_sc_unpaired :
    xAfter (start .rv64 [(6, 0x2000), (7, 8)] [] [(0x2000, 3)]) 0x187322AF 5 = some 1 ∧
    memAfter (start .rv64 [(6, 0x2000), (7, 8)] [] [(0x2000, 3)]) 0x187322AF 0x2000 1 = some [3] := by decide

/-- 60_exceptions.md R412: after an ECALL the hart has ended and stands still. -/
theorem test_ecall_ends :
    ((after (start .rv64 [] [] []) 0x00000073).map fun t => (t.hart.ended, t.hart.pos, decide (nextOf t.turn = some t))) =
      some (true, 1, true) := by decide

/-- 92_eei_decisions.md D27: past the last word the stream ends with no instruction. -/
theorem test_end_of_program : nextOf (step (start .rv64 [] [] [])) = some (start .rv64 [] [] []).endStream := by decide

/-! ### The memory model on a finished history (95_test_vectors.md) -/

/-- A plain operation of four bytes. -/
def plainOp (hart inst addr : Nat) (loaded stored : List Byte) : MemOp :=
  { hart := hart, inst := inst, isLoad := decide (loaded ≠ []), isStore := decide (stored ≠ []), addr := addr, len := 4,
    loaded := loaded, stored := stored, annot := Annot.none, region := .main, fromAMOorSC := false, pairedWith := none }

/-- Two harts with some streams (oldest first) and a history. -/
def finished (s0 s1 : List Instr) (ops : List MemOp) : State :=
  let b := start .rv64 [] [] ((List.range 8).map (fun k => (0x2000 + k, 0)))
  { b with
    hart := { b.hart with stream := s0.reverse.map (fun i => { instr := i, scOk := false }), pos := s0.length }
    others := [{ Hart.start 1 0x3000 0 with stream := s1.reverse.map (fun i => { instr := i, scOk := false }), pos := s1.length }]
    history := ops }

/-- Message passing: the writer stores x then y, the reader loads y = 1 then x = 0. Plain accesses admit it. -/
theorem test_message_passing_plain :
    (finished [.sw 7 6 0, .sw 7 6 4] [.lw 5 6 4, .lw 8 6 0]
      [plainOp 0 0 0x2000 [] [1, 0, 0, 0], plainOp 0 1 0x2004 [] [1, 0, 0, 0],
       plainOp 1 0 0x2004 [1, 0, 0, 0] [], plainOp 1 1 0x2000 [0, 0, 0, 0] []]).admittedB = true := by decide

/-- The same with a FENCE RW, RW on both sides is forbidden. -/
theorem test_message_passing_fenced :
    (finished [.sw 7 6 0, .fence 0 3 3 0 0, .sw 7 6 4] [.lw 5 6 4, .fence 0 3 3 0 0, .lw 8 6 0]
      [plainOp 0 0 0x2000 [] [1, 0, 0, 0], plainOp 0 2 0x2004 [] [1, 0, 0, 0],
       plainOp 1 0 0x2004 [1, 0, 0, 0] [], plainOp 1 2 0x2000 [0, 0, 0, 0] []]).admittedB = false := by decide

/-- With a FENCE on the writer and an address dependency on the reader (x9 comes from x5) it is forbidden too. -/
theorem test_message_passing_dependency :
    (finished [.sw 7 6 0, .fence 0 3 3 0 0, .sw 7 6 4] [.lw 5 6 4, .xor 9 5 5, .add 9 9 6, .lw 8 9 0]
      [plainOp 0 0 0x2000 [] [1, 0, 0, 0], plainOp 0 2 0x2004 [] [1, 0, 0, 0],
       plainOp 1 0 0x2004 [1, 0, 0, 0] [], plainOp 1 3 0x2000 [0, 0, 0, 0] []]).admittedB = false := by decide


/-! ### Witnesses: for every obligation with hypotheses, inputs that meet them -/

theorem witness_DecodeInvertsEncode :
    WellFormed .rv64 .all (.jal 31 0x100000) ∧ WellFormed .rv32 .all (.slli32 31 0 31) ∧
    WellFormed .rv64 .all (.fence 15 15 15 31 31) := ⟨⟨rfl, rfl, rfl⟩, ⟨rfl, rfl, rfl⟩, ⟨rfl, rfl, rfl⟩⟩

theorem witness_EncodeInvertsDecode : decode .rv32 .all 0xFFFFFFEF = .ok (.jal 31 0x1FFFFE) := by decide

theorem witness_LittleEndianBytes : ∃ n k : Nat, n ≤ 8 ∧ k < n ∧ n = 8 ∧ k = 7 := ⟨8, 7, by decide⟩

theorem witness_WordsThatAreNoInstruction :
    (2 : BitVec 32).extractLsb' 0 2 ≠ 3 ∧
    existsFor .rv64 (.mul 1 2 3) = true ∧ groupPresent { Ext.all with m := false } (groupOf (.mul 1 2 3)) = false ∧
    (existsFor .rv32 (.ld 1 2 8) = false ∧ ∀ rd rs1 sh, Instr.ld 1 2 8 ≠ .slli rd rs1 sh ∧ Instr.ld 1 2 8 ≠ .srli rd rs1 sh ∧
      Instr.ld 1 2 8 ≠ .srai rd rs1 sh) ∧
    32 ≤ (32 : BitVec 6).toNat ∧ (31 : BitVec 6).toNat = (31 : BitVec 5).toNat ∧ existsFor .rv64 (.srai32 1 2 31) = false ∧
    (0x30200073 : BitVec 32).extractLsb' 0 7 = 0b1110011 ∧ (0x30200073 : BitVec 32).extractLsb' 12 3 = 0 ∧
    (0x30200073 : BitVec 32) ≠ 0x00000073 ∧ (0x30200073 : BitVec 32) ≠ 0x00100073 :=
  ⟨by decide, by decide, by decide, ⟨by decide, by simp⟩, by decide⟩

theorem witness_StepRunsDecodedInstruction :
    (bare.withFetchWord 32 0x007302B3).hart.ended = false ∧ (bare.withFetchWord 32 0x007302B3).atEnd = false ∧
    (bare.withFetchWord 32 0x007302B3).written (bare.withFetchWord 32 0x007302B3).pc.toNat 4 = false ∧
    decodeBytes (bare.withFetchWord 32 0x007302B3).xlen (bare.withFetchWord 32 0x007302B3).params.ext
      ((bare.withFetchWord 32 0x007302B3).textBytes (bare.withFetchWord 32 0x007302B3).pc.toNat 4) = .ok (.add 5 6 7, []) := by
  decide

theorem witness_PlacedWordRuns :
    (atPc 0xFFFFFFFFFFFFFFFC bare).mem.wf ∧
    ((atPc 0xFFFFFFFFFFFFFFFC bare).pc.toNat : Int) + 4 ≤ size (atPc 0xFFFFFFFFFFFFFFFC bare) ∧
    WellFormed (atPc 0xFFFFFFFFFFFFFFFC bare).xlen (atPc 0xFFFFFFFFFFFFFFFC bare).params.ext (.add 5 6 7) :=
  ⟨List.Pairwise.nil, by show (0xFFFFFFFFFFFFFFFC : Int) + 4 ≤ 2 ^ 64; norm_num, ⟨rfl, rfl, rfl⟩⟩

/-- The bare state with a byte at 0x1003 stored. -/
def overwritten : State := { bare with mem := [(0x1003, 0)] }
/-- The bare state with some bytes of text. -/
def texted (l : List Host.Cell) : State := { bare with params := { bare.params with init := l } }

theorem witness_StepsWithoutInstruction :
    (start .rv64 [] [] []).endStream.hart.ended = true ∧
    ((start .rv64 [] [] []).hart.ended = false ∧ (start .rv64 [] [] []).atEnd = true) ∧
    (overwritten.hart.ended = false ∧ overwritten.atEnd = false ∧ overwritten.written overwritten.pc.toNat 4 = true) ∧
    (bare.hart.ended = false ∧ bare.atEnd = false ∧ bare.written bare.pc.toNat 4 = false ∧
      decodeBytes bare.xlen bare.params.ext (bare.textBytes bare.pc.toNat 4) = .error .truncated) ∧
    ((texted [(0x1000, 1), (0x1001, 0)]).hart.ended = false ∧ (texted [(0x1000, 1), (0x1001, 0)]).atEnd = false ∧
      (texted [(0x1000, 1), (0x1001, 0)]).written (texted [(0x1000, 1), (0x1001, 0)]).pc.toNat 4 = false ∧
      (texted [(0x1000, 1), (0x1001, 0)]).textBytes (texted [(0x1000, 1), (0x1001, 0)]).pc.toNat 4 = [1, 0] ∧
      (1 : Byte).extractLsb' 0 2 ≠ 3) := by decide

theorem witness_TurnChangesOneHart :
    (∃ t, step (two (bare.withFetchWord 32 0x007302B3)) = .next t) ∧
    (∃ t, step (two bare.endStream) = .next t) ∧ bare.endStream.hart.ended = true :=
  ⟨⟨_, rfl⟩, ⟨_, rfl⟩, rfl⟩

theorem witness_RegisterFiles : ∃ r q : Reg, r ≠ 0 ∧ q ≠ r := ⟨31, 0, by decide⟩

theorem witness_ShiftImmediateResults : (start .rv32 [] [] []).xlen = .rv32 ∧ bare.xlen = .rv64 := ⟨rfl, rfl⟩
theorem witness_WordFormResults : bare.xlen = .rv64 := rfl
theorem witness_MultiplyResults : bare.xlen = .rv64 := rfl
theorem witness_DivideResults : bare.xlen = .rv64 := rfl

theorem witness_JumpsLinkAndGo :
    bare.params.ext.c = true ∧ (strict bare).params.ext.c = false ∧
    (((strict bare).pc.toNat : Int) + (4 : BitVec 21).toInt) % size (strict bare) % 4 = 0 ∧
    (ux (strict bare) 0 + (5 : BitVec 12).toInt) % size (strict bare) / 2 * 2 % 4 = 0 := by decide

theorem witness_BranchesGoOrFallThrough :
    (∃ taken, ((.beq 1 2 2 : Instr) = .beq 1 2 2 ∧ (taken ↔ ux bare 1 = ux bare 2)) ∧ taken ∧ bare.params.ext.c = true) ∧
    (∃ taken, ((.bne 1 2 2 : Instr) = .bne 1 2 2 ∧ (taken ↔ ux bare 1 ≠ ux bare 2)) ∧ ¬ taken) :=
  ⟨⟨True, ⟨rfl, by simp only [true_iff]; decide⟩, trivial, rfl⟩, ⟨False, ⟨rfl, by simp only [false_iff]; decide⟩, id⟩⟩

/-- x5 = x6 = 0 and x7 = 1, without compressed instructions. -/
def compared : State := strict (start .rv64 [(7, 1)] [] [])

theorem witness_MisalignedTargetsStop :
    compared.params.ext.c = false ∧ ((compared.pc.toNat : Int) + (2 : BitVec 21).toInt) % size compared % 4 ≠ 0 ∧
    (ux compared 7 + (1 : BitVec 12).toInt) % size compared / 2 * 2 % 4 ≠ 0 ∧
    ((compared.pc.toNat : Int) + (2 : BitVec 13).toInt) % size compared % 4 ≠ 0 ∧
    ux compared 5 = ux compared 6 ∧ ux compared 5 ≠ ux compared 7 ∧ sx compared 5 < sx compared 7 ∧
    sx compared 6 ≤ sx compared 5 ∧ ux compared 5 < ux compared 7 ∧ ux compared 6 ≤ ux compared 5 := by decide

/-! #### Accesses -/

/-- Memory without io bytes is main as far as the address space goes. -/
theorem inMain_of_no_io {s : State} {a n : Nat} (h : s.params.io = []) (hs : ((a + n : Nat) : Int) ≤ size s) : InMain s a n :=
  ⟨fun k _ => by simp [regionOf, h], hs⟩

/-- x6 holds an address. -/
def addressed (a : Nat) : State := start .rv64 [(6, a)] [] []

theorem witness_LoadsReadMemory :
    (addressed 0xFFFFFFFFFFFFFFF8).xlen = .rv64 ∧
    Allowed (strict (addressed 0xFFFFFFFFFFFFFFF8)) ((strict (addressed 0xFFFFFFFFFFFFFFF8)).effAddr 6 0) 8 ∧
    InMain (strict (addressed 0xFFFFFFFFFFFFFFF8)) ((strict (addressed 0xFFFFFFFFFFFFFFF8)).effAddr 6 0) 8 ∧
    Allowed (addressed 0x2001) ((addressed 0x2001).effAddr 6 0) 2 ∧
    InMain (addressed 0x2001) ((addressed 0x2001).effAddr 6 0) 2 :=
  ⟨rfl, .inr (by decide), inMain_of_no_io rfl (by decide), .inl rfl, inMain_of_no_io rfl (by decide)⟩

theorem witness_StoresWriteMemory :
    Allowed (withText [0x1FFF, 0x2008] (addressed 0x2000)) ((withText [0x1FFF, 0x2008] (addressed 0x2000)).effAddr 6 0) 8 ∧
    InMain (withText [0x1FFF, 0x2008] (addressed 0x2000)) ((withText [0x1FFF, 0x2008] (addressed 0x2000)).effAddr 6 0) 8 ∧
    NotText (withText [0x1FFF, 0x2008] (addressed 0x2000)) ((withText [0x1FFF, 0x2008] (addressed 0x2000)).effAddr 6 0) 8 :=
  ⟨.inl rfl, inMain_of_no_io rfl (by decide), by show ∀ b ∈ [0x1FFF, 0x2008], ¬ (_ ≤ b ∧ b < _); decide⟩

theorem witness_FloatLoadsAndStores :
    (addressed 0x2000).params.ext.d = true ∧ Allowed (addressed 0x2000) ((addressed 0x2000).effAddr 6 0) 8 ∧
    InMain (addressed 0x2000) ((addressed 0x2000).effAddr 6 0) 8 ∧
    NotText (addressed 0x2000) ((addressed 0x2000).effAddr 6 0) 8 :=
  ⟨rfl, .inl rfl, inMain_of_no_io rfl (by decide), by show ∀ b ∈ [], _; simp⟩

theorem witness_PlainAccessStops :
    (¬ Allowed (strict (addressed 0x2001)) 0x2001 2) ∧
    (Allowed (withIo 0x2007 (addressed 0x2000)) 0x2000 8 ∧
      ∃ k, k < 8 ∧ regionOf (withIo 0x2007 (addressed 0x2000)).params (0x2000 + k) = .io) ∧
    (Allowed (addressed 0xFFFFFFFFFFFFFFFF) 0xFFFFFFFFFFFFFFFF 2 ∧
      (∀ k, k < 2 → regionOf (addressed 0xFFFFFFFFFFFFFFFF).params (0xFFFFFFFFFFFFFFFF + k) = .main) ∧
      size (addressed 0xFFFFFFFFFFFFFFFF) < ((0xFFFFFFFFFFFFFFFF + 2 : Nat) : Int)) ∧
    (Allowed (withText [0x2007] (addressed 0x2000)) 0x2000 8 ∧ InMain (withText [0x2007] (addressed 0x2000)) 0x2000 8 ∧
      ¬ NotText (withText [0x2007] (addressed 0x2000)) 0x2000 8) :=
  ⟨by rintro (h | h) <;> exact absurd h (by decide), ⟨.inl rfl, 7, by decide⟩,
    ⟨.inl rfl, fun k _ => by simp [regionOf, addressed, start, Params.reset], by decide⟩,
    ⟨.inl rfl, inMain_of_no_io rfl (by decide), fun h => h 0x2007 (by simp [withText]) (by decide)⟩⟩

/-- Two harts and some draws. -/
def drawing (l : List Byte) : State := { two bare with draws := { bytes := l, scs := [], splits := [], count := 5 } }

theorem witness_LoadedBytes :
    bare.others = [] ∧ (drawing [1, 2, 3]).others ≠ [] ∧ (drawing [1, 2, 3]).draws.bytes = [1, 2] ++ [3] ∧
    [(1 : Byte), 2].length = 2 ∧ (drawing []).others ≠ [] ∧ (drawing []).draws.bytes = [] := by decide

theorem witness_LoadReservedEffect :
    ((addressed 0x2000).readX 6).toNat % 8 = 0 ∧ InMain (addressed 0x2000) ((addressed 0x2000).readX 6).toNat 8 ∧
    (addressed 0x2000).xlen = .rv64 := ⟨by decide, inMain_of_no_io rfl (by decide), rfl⟩

/-- An LR of 8 bytes at 0x2000 is outstanding and the draw is success. -/
def reserved : State := paired 8 (addressed 0x2000)

theorem witness_ScSuccessEffect :
    (reserved.readX 6).toNat % 8 = 0 ∧
    MaySucceed reserved (reserved.readX 6).toNat 8 { inst := 0, addr := 0x2000, width := 8 } ∧ reserved.draws.sc.1 = true ∧
    InMain reserved (reserved.readX 6).toNat 8 ∧ NotText reserved (reserved.readX 6).toNat 8 :=
  ⟨by decide, ⟨rfl, .inr (by decide)⟩, rfl, inMain_of_no_io rfl (by decide), by show ∀ b ∈ [], _; simp⟩

theorem witness_ScFailureEffect :
    ((addressed 0x2000).readX 6).toNat % 4 = 0 ∧
    (∀ l, ¬ MaySucceed (addressed 0x2000) ((addressed 0x2000).readX 6).toNat 4 l) ∧
    (reserved.readX 6).toNat % 8 = 0 ∧
    ({ reserved with draws := { reserved.draws with scs := [false] } } : State).draws.sc.1 = false :=
  ⟨by decide, fun l h => absurd h.1 (by simp [addressed, start, Hart.start]), by decide, rfl⟩

theorem witness_AmoEffects :
    ((addressed 0x2000).readX 6).toNat % 8 = 0 ∧ InMain (addressed 0x2000) ((addressed 0x2000).readX 6).toNat 8 ∧
    NotText (addressed 0x2000) ((addressed 0x2000).readX 6).toNat 8 :=
  ⟨by decide, inMain_of_no_io rfl (by decide), by show ∀ b ∈ [], _; simp⟩

theorem witness_AtomicAccessStops :
    (0x2001 % 4 ≠ 0) ∧
    (∃ k, k < 4 ∧ regionOf (withIo 0x2003 (addressed 0x2000)).params (0x2000 + k) = .io) ∧
    (InMain (withText [0x2000] (addressed 0x2000)) 0x2000 4 ∧ ¬ NotText (withText [0x2000] (addressed 0x2000)) 0x2000 4) ∧
    (MaySucceed reserved 0x2000 8 { inst := 0, addr := 0x2000, width := 8 } ∧ reserved.draws.sc.1 = true) :=
  ⟨by decide, ⟨3, by decide⟩,
    ⟨inMain_of_no_io rfl (by decide), fun h => h 0x2000 (by simp [withText]) (by decide)⟩,
    ⟨⟨rfl, .inr (by decide)⟩, rfl⟩⟩

theorem witness_CsrInstructions :
    ((3 : BitVec 12) = 1 ∨ (3 : BitVec 12) = 2 ∨ (3 : BitVec 12) = 3) ∧
    (4 : BitVec 12) ≠ 1 ∧ (4 : BitVec 12) ≠ 2 ∧ (4 : BitVec 12) ≠ 3 ∧
    (0 : BitVec 12) ≠ 1 ∧ (0 : BitVec 12) ≠ 2 ∧ (0 : BitVec 12) ≠ 3 := by decide

theorem witness_FencesTouchNothing : ∃ i t, (i = Instr.fence 8 3 3 0 0 ∨ i = .fenceI 0 0 0) ∧ exec i bare = .next t :=
  ⟨_, _, .inl rfl, rfl⟩

theorem witness_EcallEbreakEndTheStream : ∃ i, i = Instr.ecall ∨ i = Instr.ebreak := ⟨_, .inr rfl⟩

/-! #### Floating point -/

theorem witness_SingleArithmetic :
    bare.rounding 0 = some .rne ∧ (withCsr 4 0 bare).rounding 7 = some .rmm ∧ bare.xlen = .rv64 := by decide
theorem witness_DoubleArithmetic : bare.params.ext.d = true ∧ bare.rounding 4 = some .rmm ∧ bare.xlen = .rv64 := by decide
theorem witness_SignMinMaxAndMoves : bare.params.ext.d = true ∧ bare.xlen = .rv64 := ⟨rfl, rfl⟩
theorem witness_CompareClassifyAndMoves : bare.params.ext.d = true ∧ bare.xlen = .rv64 := ⟨rfl, rfl⟩

theorem witness_FloatToInteger :
    bare.rounding 1 = some .rtz ∧ bare.params.ext.d = true ∧ bare.xlen = .rv64 ∧
    ∃ i f a signed n, i = Instr.fcvtLUD 5 2 1 ∧ f = Fmt.double ∧ a = bare.readD 2 ∧ signed = false ∧ n = 64 :=
  ⟨rfl, rfl, rfl, _, _, _, _, _, rfl, rfl, rfl, rfl, rfl⟩

theorem witness_ReservedRoundingStops :
    bare.rounding 5 = none ∧ (withCsr 7 0 bare).rounding 7 = none ∧ (withCsr 7 0 bare).hart.frm = 7 ∧ bare.hart.frm ≠ 7 ∧
    (-2 ^ 31 : Int) ≤ 2 ^ 32 - 1 ∧ (2 ^ 32 - 1 : Int) < 2 ^ 32 := by decide

/-- f2 holds a single-precision pattern, boxed or not; without D. -/
def narrow : State := { bare with params := { bare.params with ext := { Ext.all with d := false } } }
def boxedIn : State := start .rv64 [] [(2, 0xFFFFFFFF00000000)] []

theorem witness_NanBoxing :
    bare.params.ext.d = true ∧ (boxedIn.readF 2).toNat / 2 ^ 32 = 2 ^ 32 - 1 ∧
    (bare.readF 2).toNat / 2 ^ 32 ≠ 2 ^ 32 - 1 ∧ narrow.params.ext.d = false := by decide

theorem witness_NanAndInfiniteOperands :
    Standard .single ∧ Standard .double ∧ (Fmt.single.datum 0x7F800001).isNan = true ∧
    (Fmt.double.datum 0xFFF8000000000000).isNan = true ∧
    Fmt.single.datum 0xFF800000 = .inf true ∧ Fmt.single.datum 0x7F800000 = .inf (!true) ∧
    (Fmt.single.datum 0x80000000).isNan = false ∧ valueOf .single 0x80000000 = some 0 ∧
    (∀ m, Fmt.single.datum 0x80000000 ≠ .inf m) ∧ InfTimesZero .single 0xFF800000 0x80000000 ∧
    ¬InfTimesZero .single 0xFF800000 0x7F800000 := by
  have hz : Fmt.single.datum 0x80000000 = .fin true 0 (-149) := by decide
  have hi : Fmt.single.datum 0xFF800000 = .inf true := by decide
  have hp : Fmt.single.datum 0x7F800000 = .inf false := by decide
  have h0 : valueOf .single 0x80000000 = some 0 := by rw [valueOf, hz]; simp
  refine ⟨.inl rfl, .inr rfl, by decide, by decide, hi, hp, by decide, h0, by rw [hz]; simp, .inl ⟨⟨_, hi⟩, h0⟩, ?_⟩
  rintro (⟨_, h⟩ | ⟨h, _⟩)
  · rw [valueOf, hp] at h; cases h
  · rw [valueOf, hi] at h; cases h

theorem witness_ComparisonsAndClasses :
    Standard .single ∧ (∃ p, extendedOf .single 0x7F800000 = some p) ∧ (∃ q, extendedOf .single 0x80000000 = some q) ∧
    (Fmt.single.datum 0x7F800001).isNan = true ∧ (Fmt.single.datum 0).isNan = false ∧
    (∃ v, valueOf .single 0x00800000 = some v) ∧ Fmt.single.datum 0xFF800000 = .inf true ∧
    Fmt.single.datum 0x7FC00000 = .nan false := by
  refine ⟨.inl rfl, ?_, ?_, by decide, by decide, ?_, by decide, by decide⟩
  · rw [extendedOf, show Fmt.single.datum 0x7F800000 = .inf false by decide]; exact ⟨_, rfl⟩
  · rw [extendedOf, show Fmt.single.datum 0x80000000 = .fin true 0 (-149) by decide]; exact ⟨_, rfl⟩
  · rw [valueOf, show Fmt.single.datum 0x00800000 = .fin false 0x800000 (-149) by decide]; exact ⟨_, rfl⟩

theorem witness_RoundingIsCorrect : Standard .double ∧ (0 < 1) ∧ ∃ x : ℝ, x = (if true then -1 else 1) * ((1 : Nat) : ℝ) * (2 : ℝ) ^ (-1075 : Int) :=
  ⟨.inr rfl, by decide, _, rfl⟩

theorem witness_ArithmeticIsExactThenRounded :
    Standard .single ∧ Standard .double ∧ (∃ p, valueOf .single 0x3F800000 = some p) ∧
    ∃ x out dst z, x = (3 : ℝ) ∧ out = Fmt.single.ofInt .rne 3 ∧ dst = Fmt.single ∧ z = false :=
  ⟨.inl rfl, .inr rfl,
    by rw [valueOf, show Fmt.single.datum 0x3F800000 = .fin false 0x800000 (-23) by decide]; exact ⟨_, rfl⟩,
    _, _, _, _, rfl, rfl, rfl, rfl⟩

/-- 1.0, -1.0 and -0.0 in double precision. -/
theorem witness_QuotientAndRootAreCorrect :
    Standard .double ∧ (∃ p, valueOf .double 0x3FF0000000000000 = some p ∧ p ≠ 0 ∧ 0 ≤ p) ∧
    (∃ p, valueOf .double 0xBFF0000000000000 = some p ∧ p < 0) ∧ (∃ q, valueOf .double 0x8000000000000000 = some q ∧ q = 0) := by
  refine ⟨.inr rfl, ?_, ?_, ?_⟩
  · rw [valueOf, show Fmt.double.datum 0x3FF0000000000000 = .fin false 0x10000000000000 (-52) by decide]
    exact ⟨_, rfl, by norm_num, by norm_num⟩
  · rw [valueOf, show Fmt.double.datum 0xBFF0000000000000 = .fin true 0x10000000000000 (-52) by decide]
    exact ⟨_, rfl, by norm_num⟩
  · rw [valueOf, show Fmt.double.datum 0x8000000000000000 = .fin true 0 (-1074) by decide]
    exact ⟨_, rfl, by norm_num⟩


/-! ### Hypotheses of the memory-model statements -/

/-- An operation of hart 0 on the byte at address 0. -/
def cell (inst : Nat) (loaded stored : List Byte) (annot : Annot) : MemOp :=
  { hart := 0, inst := inst, isLoad := decide (loaded ≠ []), isStore := decide (stored ≠ []), addr := 0, len := 1,
    loaded := loaded, stored := stored, annot := annot, region := .main, fromAMOorSC := false, pairedWith := none }

/-- Operations of hart 0, which runs a program, over one byte of main memory. -/
def chain (ops : List MemOp) (prog : List Instr) : Execution :=
  { ops := fun o => o ∈ ops
    inst := fun h p => if h = 0 then (prog[p]?).map (fun i => { instr := i, scOk := true }) else none
    main := fun x => x = 0
    init := fun _ => 0 }

/-- The place of an event: the initial store, then program order. -/
def place (e : Event) : Nat :=
  match e with
  | .init _ => 0
  | .op o => o.inst + 1

/-- The events in the order of their places. -/
def inTurn (e f : Event) : Prop := place e < place f

/-- The operations are on byte 0, at different positions of hart 0. -/
def OneByte (ops : List MemOp) : Prop :=
  ops.Pairwise (fun a b => a.inst ≠ b.inst) ∧ ∀ o ∈ ops, o.hart = 0 ∧ o.addr = 0 ∧ o.len = 1

theorem OneByte.same {ops : List MemOp} (ho : OneByte ops) {a b : MemOp} (ha : a ∈ ops) (hb : b ∈ ops)
    (h : a.inst = b.inst) : a = b := by
  obtain ⟨hp, -⟩ := ho
  induction ops with
  | nil => cases ha
  | cons o ops ih =>
    obtain ⟨ho, hp⟩ := List.pairwise_cons.mp hp
    rcases List.mem_cons.mp ha with rfl | ha' <;> rcases List.mem_cons.mp hb with rfl | hb'
    · rfl
    · exact absurd h (ho b hb')
    · exact absurd h.symm (ho a ha')
    · exact ih ha' hb' hp

/-- e is the latest store before position p, among the initial store and the operations. -/
def Latest (ops : List MemOp) (e : Event) (p : Nat) : Prop :=
  let store : Event → Bool := fun c => match c with | .init _ => true | .op o => o.isStore
  (e ∈ Event.init 0 :: ops.map .op) ∧ store e = true ∧ place e < p + 1 ∧
  ∀ c ∈ Event.init 0 :: ops.map .op, store c = true → place c < p + 1 → c = e ∨ place c < place e

theorem chain_rf {ops : List MemOp} {prog : List Instr} {e : Event} {i : MemOp} (ho : OneByte ops) (h : Latest ops e i.inst) :
    (chain ops prog).rf inTurn e i 0 := by
  obtain ⟨hm, hs, hp, hl⟩ := h
  have writes : ∀ o ∈ ops, o.isStore = true → (Event.op o).writes 0 := fun o h hs => by
    obtain ⟨_, h1, h2⟩ := ho.2 o h
    exact ⟨hs, by omega, by omega⟩
  refine ⟨⟨?_, ?_, .inl hp⟩, ?_⟩
  · cases e with
    | init x => exact show x = 0 by simpa using hm
    | op o => exact show o ∈ ops by simpa using hm
  · cases e with
    | init x => exact show x = 0 by simpa using hm
    | op o => exact writes o (by simpa using hm) hs
  · rintro c ⟨hc, hw, hb⟩
    have hb : place c < i.inst + 1 := hb.elim id (fun h => by
      cases c with
      | init x => exact h.elim
      | op o => exact Nat.succ_lt_succ h.2)
    cases c with
    | init x => exact hl _ (by rw [show x = 0 from hc]; simp) rfl hb
    | op o => exact hl _ (by simp [show o ∈ ops from hc]) hw.1 hb

theorem chain_legal {ops : List MemOp} {prog : List Instr} (ho : OneByte ops)
    (hl : ∀ o ∈ ops, o.isLoad = true → ∃ e, Latest ops e o.inst ∧ o.returned 0 = (chain ops prog).written e 0) :
    (chain ops prog).LegalWith inTurn := by
  refine { order := ⟨fun e _ => Nat.lt_irrefl _, fun _ _ _ _ _ _ => Nat.lt_trans, ?_⟩, initFirst := fun x o _ _ => Nat.succ_pos _,
           preserved := fun a b _ _ h => Nat.succ_lt_succ h.1.2, loadValue := ?_, atomicity := ?_,
           progress := fun b _ => Set.Finite.subset (List.finite_toSet ops) (fun a h => h.1) }
  · rintro (x | a) (y | b) he hf
    · exact .inl (by rw [show x = 0 from he, show y = 0 from hf])
    · exact .inr (.inl (Nat.succ_pos _))
    · exact .inr (.inr (Nat.succ_pos _))
    · rcases Nat.lt_trichotomy a.inst b.inst with h | h | h
      · exact .inr (.inl (Nat.succ_lt_succ h))
      · exact .inl (by rw [ho.same he hf h])
      · exact .inr (.inr (Nat.succ_lt_succ h))
  · intro i hi hload x hx
    obtain ⟨_, h1, h2⟩ := ho.2 i hi
    obtain rfl : x = 0 := by obtain ⟨h3, h4⟩ := hx; omega
    obtain ⟨e, h3, h4⟩ := hl i hi hload
    exact ⟨e, chain_rf ho h3, h4⟩
  · rintro r w hr _ ⟨_, _, _, hlt, _⟩ _ _ x _ s ⟨⟨_, _, hs⟩, _⟩
    refine ⟨?_, ?_⟩
    · rcases hs with hs | hs
      · exact Nat.lt_trans hs (Nat.succ_lt_succ hlt)
      · cases s with
        | init x => exact hs.elim
        | op o => exact Nat.succ_lt_succ (Nat.lt_trans hs.2 hlt)
    · rintro ⟨t, ht, _, _, hh, _⟩
      exact hh ((ho.2 t ht).1.trans (ho.2 r hr).1.symm)

theorem chain_disjoint {ops : List MemOp} {prog : List Instr} (ho : OneByte ops) : DisjointParts (chain ops prog) :=
  fun _ _ _ ha hb _ h _ _ => ho.same ha hb h

theorem cell_has {p : Nat} {l s : List Byte} {x : Annot} : (cell p l s x).has 0 := ⟨Nat.le_refl 0, by simp [cell]⟩

/-- A store of 1 then a load of 1. -/
def storeLoad : List MemOp := [cell 0 [] [1] Annot.none, cell 2 [1] [] Annot.none]
/-- A load of the initial 0 then a store of 1. -/
def loadStore : List MemOp := [cell 0 [0] [] Annot.none, cell 2 [] [1] Annot.none]
/-- Two loads of the initial 0, with annotations. -/
def loadLoad (x y : Annot) : List MemOp := [cell 0 [0] [] x, cell 2 [0] [] y]
/-- Two stores. -/
def storeStore : List MemOp := [cell 0 [] [1] Annot.none, cell 2 [] [2] Annot.none]

theorem storeLoad_legal : (chain storeLoad []).LegalWith inTurn :=
  chain_legal (by unfold OneByte; decide) (fun o ho hl => ⟨.op (cell 0 [] [1] Annot.none), by
    fin_cases ho
    · exact absurd hl (by decide)
    · exact ⟨by unfold Latest; decide, by decide⟩⟩)

theorem loadStore_legal : (chain loadStore []).LegalWith inTurn :=
  chain_legal (by unfold OneByte; decide) (fun o ho hl => ⟨.init 0, by
    fin_cases ho
    · exact ⟨by unfold Latest; decide, rfl⟩
    · exact absurd hl (by decide)⟩)

theorem loadLoad_oneByte (x y : Annot) : OneByte (loadLoad x y) := by
  simp [OneByte, loadLoad, cell]

theorem loadLoad_latest (x y : Annot) (p : Nat) : Latest (loadLoad x y) (.init 0) p := by
  simp [Latest, loadLoad, cell, place]

theorem loadLoad_legal (x y : Annot) (prog : List Instr) : (chain (loadLoad x y) prog).LegalWith inTurn :=
  chain_legal (loadLoad_oneByte x y) (fun o ho _ => ⟨.init 0, loadLoad_latest x y _, by
    rcases List.mem_pair.mp ho with rfl | rfl <;> rfl⟩)

theorem storeStore_legal : (chain storeStore []).LegalWith inTurn :=
  chain_legal (by unfold OneByte; decide) (fun o ho hl => by fin_cases ho <;> exact absurd hl (by decide))

/-- One execution for each clause. -/
theorem witness_PerByteCoherence :
    (∃ (E : Execution) (gmo : Event → Event → Prop) (s i : MemOp), E.LegalWith gmo ∧ E.ops s ∧ s.isStore = true ∧ s.has 0 ∧
      E.ops i ∧ i.isLoad = true ∧ i.has 0 ∧ po s i) ∧
    (∃ (E : Execution) (gmo : Event → Event → Prop) (s t : MemOp), E.LegalWith gmo ∧ AllMain E ∧ E.ops s ∧ E.ops t ∧
      s.isStore = true ∧ t.isStore = true ∧ s.has 0 ∧ t.has 0 ∧ po s t) ∧
    (∃ (E : Execution) (gmo : Event → Event → Prop) (i s : MemOp) (e : Event), E.LegalWith gmo ∧ AllMain E ∧ E.ops i ∧
      i.isLoad = true ∧ i.has 0 ∧ E.ops s ∧ s.isStore = true ∧ s.has 0 ∧ po i s ∧ E.rf gmo e i 0) ∧
    (∃ (E : Execution) (gmo : Event → Event → Prop) (a b : MemOp) (e f : Event), E.LegalWith gmo ∧ AllMain E ∧ E.ops a ∧
      E.ops b ∧ a.isLoad = true ∧ b.isLoad = true ∧ a.has 0 ∧ b.has 0 ∧ po a b ∧ E.rf gmo e a 0 ∧ E.rf gmo f b 0) :=
  ⟨⟨_, _, cell 0 [] [1] Annot.none, cell 2 [1] [] Annot.none, storeLoad_legal, .head _, rfl, cell_has, .tail _ (.head _), rfl,
    cell_has, rfl, by decide⟩,
   ⟨_, _, _, _, storeStore_legal, (by decide : ∀ o ∈ storeStore, o.region = .main), .head _, .tail _ (.head _), rfl, rfl, cell_has, cell_has, rfl,
    by decide⟩,
   ⟨_, _, cell 0 [0] [] Annot.none, _, .init 0, loadStore_legal, (by decide : ∀ o ∈ loadStore, o.region = .main), .head _, rfl, cell_has, .tail _ (.head _), rfl,
    cell_has, ⟨rfl, by decide⟩, chain_rf (by unfold OneByte; decide) (by unfold Latest; decide)⟩,
   ⟨_, _, _, _, _, _, loadLoad_legal Annot.none Annot.none [], (by decide : ∀ o ∈ loadLoad Annot.none Annot.none, o.region = .main),
    .head _, .tail _ (.head _), rfl, rfl, cell_has, cell_has, ⟨rfl, by decide⟩, chain_rf (loadLoad_oneByte _ _) (loadLoad_latest _ _ _),
    chain_rf (loadLoad_oneByte _ _) (loadLoad_latest _ _ _)⟩⟩

/-- A load after a store, and a load with no store before it. -/
theorem witness_SingleHartReadsInOrder :
    (∃ (E : Execution) (gmo : Event → Event → Prop) (i : MemOp), E.LegalWith gmo ∧ AllMain E ∧ DisjointParts E ∧
      (∀ o, E.ops o → o.hart = 0) ∧ E.ops i ∧ i.isLoad = true ∧ i.has 0 ∧ ∃ s, E.ops s ∧ s.isStore = true ∧ po s i) ∧
    (∃ (E : Execution) (gmo : Event → Event → Prop) (i : MemOp), E.LegalWith gmo ∧ AllMain E ∧ DisjointParts E ∧
      (∀ o, E.ops o → o.hart = 0) ∧ E.ops i ∧ i.isLoad = true ∧ i.has 0 ∧ ∀ s, E.ops s → s.isStore = true → ¬ po s i) :=
  ⟨⟨_, _, cell 2 [1] [] Annot.none, storeLoad_legal, (by decide : ∀ o ∈ storeLoad, o.region = .main),
    chain_disjoint (by unfold OneByte; decide), (by decide : ∀ o ∈ storeLoad, o.hart = 0), .tail _ (.head _), rfl, cell_has,
    _, .head _, rfl, rfl, by decide⟩,
   ⟨_, _, cell 0 [0] [] Annot.none, loadStore_legal, (by decide : ∀ o ∈ loadStore, o.region = .main),
    chain_disjoint (by unfold OneByte; decide), (by decide : ∀ o ∈ loadStore, o.hart = 0), .head _, rfl, cell_has,
    fun _ _ _ h => absurd h.2 (Nat.not_lt_zero _)⟩⟩

/-- Two loads with an instruction between them: the hypotheses of `Obligations.SynchronisationOrders`. -/
def LoadsAround (E : Execution) (a b : MemOp) (mid : Instr) : Prop :=
  (∃ gmo, E.LegalWith gmo) ∧ E.ops a ∧ E.ops b ∧ po a b ∧ a.region = .main ∧ b.region = .main ∧ a.isLoad = true ∧
  b.isLoad = true ∧ a.inst < 1 ∧ 1 < b.inst ∧ E.inst a.hart 1 = some { instr := mid, scOk := true }

theorem loads_around (x y : Annot) (mid : Instr) :
    LoadsAround (chain (loadLoad x y) [.lb 5 0 0, mid, .lb 6 0 0]) (cell 0 [0] [] x) (cell 2 [0] [] y) mid :=
  ⟨⟨_, loadLoad_legal x y _⟩, .head _, .tail _ (.head _), ⟨rfl, Nat.zero_lt_two⟩, rfl, rfl, rfl, rfl, Nat.zero_lt_one,
    Nat.one_lt_two, rfl⟩

/-- A FENCE R, R; FENCE.TSO; a FENCE with an empty set; and the annotations. -/
theorem witness_SynchronisationOrders :
    (∃ E a b, LoadsAround E a b (.fence 0 2 2 0 0)) ∧ (∃ E a b, LoadsAround E a b (.fence 8 3 3 0 0)) ∧
    (∃ E a b, LoadsAround E a b (.fence 0 0 2 0 0)) ∧
    (∃ E a b, LoadsAround E a b .ecall ∧ a.annot.acqRCsc = true ∧ b.annot.relRCsc = true) :=
  ⟨⟨_, _, _, loads_around Annot.none Annot.none _⟩, ⟨_, _, _, loads_around Annot.none Annot.none _⟩,
   ⟨_, _, _, loads_around Annot.none Annot.none _⟩,
   ⟨_, _, _, loads_around { Annot.none with acqRCsc := true } { Annot.none with relRCsc := true } _, rfl, rfl⟩⟩

/-- LR.W x5; SC.W x7, x5; LB x8, which reads what the SC stored; LB x9, 0(x8); BEQ x9, x0; SB x8. All on byte 0. -/
def linkedProgram : List Instr :=
  [.lrW 5 6 false false, .scW 7 5 6 false false, .lb 8 6 0, .lb 9 8 0, .beq 9 0 4, .sb 8 6 0]
def linkedOps : List MemOp :=
  [cell 0 [0] [] Annot.none, { cell 1 [] [0] Annot.none with fromAMOorSC := true }, cell 2 [0] [] Annot.none,
   cell 3 [0] [] Annot.none, cell 5 [] [0] Annot.none]
def linked : Execution := chain linkedOps linkedProgram

theorem linked_oneByte : OneByte linkedOps := by unfold OneByte; decide

theorem linked_rf : linked.rf inTurn (.init 0) (cell 0 [0] [] Annot.none) 0 ∧
    linked.rf inTurn (.op { cell 1 [] [0] Annot.none with fromAMOorSC := true }) (cell 2 [0] [] Annot.none) 0 :=
  ⟨chain_rf linked_oneByte (by unfold Latest; decide), chain_rf linked_oneByte (by unfold Latest; decide)⟩

theorem linked_legal : linked.LegalWith inTurn :=
  chain_legal linked_oneByte (fun o ho hl => by
    fin_cases ho
    · exact ⟨.init 0, by unfold Latest; decide, rfl⟩
    · exact absurd hl (by decide)
    · exact ⟨.op { cell 1 [] [0] Annot.none with fromAMOorSC := true }, by unfold Latest; decide, rfl⟩
    · exact ⟨.op { cell 1 [] [0] Annot.none with fromAMOorSC := true }, by unfold Latest; decide, rfl⟩
    · exact absurd hl (by decide))

/-- A direct dependency of a program of hart 0, with nothing between that writes the unit. -/
theorem chain_depends {ops : List MemOp} {prog : List Instr} {i j : Nat} {m n : Instr} {r : DepUnit} (hij : i < j)
    (hm : prog[i]? = some m) (hn : prog[j]? = some n) (h1 : r ∈ (Instr.listing true m).destinations)
    (h2 : r ∈ (Instr.listing true n).sources)
    (h3 : ∀ k ∈ List.range j, i < k → ∀ c ∈ prog[k]?, r ∉ (Instr.listing true c).destinations) :
    (chain ops prog).depends 0 i j r :=
  ⟨r, .direct hij (m := { instr := m, scOk := true }) (n := { instr := n, scOk := true }) (by simp [chain, hm])
    (by simp [chain, hn]) h1 h2 (fun k c hk hkj hc => by
      obtain ⟨c', hc', rfl⟩ : ∃ c', prog[k]? = some c' ∧ { instr := c', scOk := true } = c := by simpa [chain] using hc
      exact h3 k (List.mem_range.mpr hkj) hk c' hc')⟩

/-- Every clause, in that one execution. -/
theorem witness_PairsDependenciesAndAtomicity :
    linked.LegalWith inTurn ∧ ∃ r w b m z, linked.ops r ∧ linked.ops w ∧ linked.ops b ∧ linked.ops m ∧ linked.ops z ∧
      po w b ∧ w.fromAMOorSC = true ∧ b.isLoad = true ∧ b.has 0 ∧ linked.rf inTurn (.op w) b 0 ∧
      PairedLrSc linked r w ∧ r.has 0 ∧ r.addr % r.len = 0 ∧ w.addr % w.len = 0 ∧ linked.rf inTurn (.init 0) r 0 ∧
      po r w ∧ DataDependent linked r w ∧ po b m ∧ AddressDependent linked b m ∧ po m z ∧ z.isStore = true ∧
      DataDependent linked b z ∧ ControlDependent linked m z ∧ ∀ o, linked.ops o → o.region = .main := by
  refine ⟨linked_legal, cell 0 [0] [] Annot.none, { cell 1 [] [0] Annot.none with fromAMOorSC := true },
    cell 2 [0] [] Annot.none, cell 3 [0] [] Annot.none, cell 5 [] [0] Annot.none, ?_⟩
  refine ⟨.head _, .tail _ (.head _), .tail _ (.tail _ (.head _)), .tail _ (.tail _ (.tail _ (.head _))),
    .tail _ (.tail _ (.tail _ (.tail _ (.head _)))), ⟨rfl, by decide⟩, rfl, rfl, cell_has, linked_rf.2, ?_, cell_has, rfl, rfl,
    linked_rf.1, ⟨rfl, by decide⟩, ?_, ⟨rfl, by decide⟩, ?_, ⟨rfl, by decide⟩, rfl, ?_, ?_,
    (by decide : ∀ o ∈ linkedOps, o.region = .main)⟩
  · exact ⟨rfl, rfl, ⟨rfl, by decide⟩, ⟨_, _, _, _, _, rfl, .inl rfl⟩, ⟨_, _, _, _, _, _, rfl, .inl rfl⟩,
      fun k _ h1 h2 => absurd (show 0 < k from h1) (by have : k < 1 := h2; omega)⟩
  · exact ⟨rfl, rfl, _, .x 5, rfl, by decide, chain_depends (by decide) rfl rfl (by decide) (by decide) (by decide)⟩
  · exact ⟨rfl, _, .x 8, rfl, by decide, chain_depends (by decide) rfl rfl (by decide) (by decide) (by decide)⟩
  · exact ⟨rfl, rfl, _, .x 8, rfl, by decide, chain_depends (by decide) rfl rfl (by decide) (by decide) (by decide)⟩
  · exact ⟨rfl, 4, _, .x 9, by decide, by decide, rfl, rfl,
      chain_depends (by decide) rfl rfl (by decide) (by decide) (by decide)⟩

/-- LW x5, 0(x6); XOR x9, x5, x5; ADD x9, x9, x6; LW x8, 0(x9), newest first: the last load depends on the first, through
x9, and there is no control dependency. -/
def dependent : List Instance :=
  [.lw 8 9 0, .add 9 9 6, .xor 9 5 5, .lw 5 6 0].map (fun i => { instr := i, scOk := false })

theorem witness_WalkComputesDependencies :
    (∃ E : Execution, ∀ p, E.inst 0 p = streamAt dependent p) ∧
    (∃ n, streamAt dependent 3 = some n ∧ DepUnit.x 9 ∈ n.listing.sources) ∧
    (depsBefore dependent 3).of (.x 9) = [0] ∧ (depsBefore dependent 3).ctrl = [] :=
  ⟨⟨{ ops := fun _ => False, inst := fun _ p => streamAt dependent p, main := fun _ => True, init := fun _ => 0 },
    fun _ => rfl⟩, ⟨_, rfl, by decide⟩, by decide, by decide⟩

/-! ### States that meet the invariants and run on -/

/-- SW x7, 4(x6) is next. -/
def storing : State := (start .rv64 [(6, 0x2000), (7, 8)] [] []).withFetchWord 32 0x00732223
/-- The store is done, and LW x5, 4(x6) is next. -/
def loading : State := ((nextOf (step storing)).getD storing).withFetchWord 32 0x00432283

/-- The store it has recorded. -/
def storeRecord : MemOp := plainOp 0 0 0x2004 [] [8, 0, 0, 0]

theorem loading_history : loading.history = [storeRecord] := by decide

theorem loading_steps : ∃ t, step loading = .next t ∧ t.readX 5 = 8 := by
  have h : ((nextOf (step loading)).map fun t => t.readX 5) = some 8 := by decide
  unfold nextOf at h
  split at h
  · exact ⟨_, ‹_›, Option.some.inj h⟩
  · cases h

theorem witness_StepKeepsBookkeeping : (∀ h ∈ loading.harts, Bookkept h) ∧ ∃ t, step loading = .next t :=
  ⟨by unfold Bookkept; decide, loading_steps.imp fun _ h => h.1⟩

theorem witness_StepKeepsMemorySound : MemorySound loading ∧ loading.mem ≠ [] ∧ loading.fetched ≠ [] ∧ ∃ t, step loading = .next t :=
  ⟨by unfold MemorySound; decide, by decide, by decide, loading_steps.imp fun _ h => h.1⟩

theorem witness_StepKeepsPcAligned : PcAligned loading ∧ PcAligned (strict loading) ∧ ∃ t, step loading = .next t :=
  ⟨by unfold PcAligned; decide, by unfold PcAligned; decide, loading_steps.imp fun _ h => h.1⟩

theorem loading_main (x : Nat) (h : storeRecord.has x) : regionOf loading.params x = .main ∧ x < loading.xlen.size := by
  obtain ⟨h1, h2⟩ := h
  have h1 : 0x2004 ≤ x := h1
  have h2 : x < 0x2004 + 4 := h2
  interval_cases x <;> decide

theorem witness_StepKeepsHistorySound : HistorySound loading ∧ ∃ t, step loading = .next t := by
  refine ⟨?_, loading_steps.imp fun _ h => h.1⟩
  intro o ho
  rw [loading_history, List.mem_singleton] at ho
  subst ho
  exact ⟨by decide, by decide, by decide, by decide, rfl, fun x hx => (loading_main x hx).1, by decide, by decide, rfl, rfl⟩

theorem loading_recorded : Recorded loading := by
  refine ⟨by decide, ?_, ?_⟩
  · intro a b x ha hb _ _ _ _
    have ha : a ∈ loading.history := ha
    have hb : b ∈ loading.history := hb
    rw [loading_history, List.mem_singleton] at ha hb
    rw [ha, hb]
  · intro o ho
    rw [loading_history, List.mem_singleton] at ho
    subst ho
    exact ⟨rfl, fun x hx => ⟨(loading_main x hx).2, (loading_main x hx).1⟩, { instr := .sw 7 6 4, scOk := false }, by decide, by decide⟩

theorem witness_StepKeepsRecorded :
    (loading.harts.map Hart.id).Nodup ∧ (∀ h ∈ loading.harts, h.pos = h.stream.length) ∧ Recorded loading ∧
    ∃ t, step loading = .next t :=
  ⟨by decide, by decide, loading_recorded, loading_steps.imp fun _ h => h.1⟩

theorem witness_CheckerDecidesAdmission : Recorded loading ∧ loading.admittedB = true := ⟨loading_recorded, by decide⟩

/-- The states after 0, 1, 2 and more steps: the store, then the end of the program. -/
def storingRun : Nat → State
  | 0 => storing
  | 1 => (nextOf (step storing)).getD storing
  | _ + 2 => ((nextOf (step storing)).getD storing).endStream

theorem storingRun_isRun : IsRun storingRun
  | 0 => rfl
  | 1 => rfl
  | _ + 2 => rfl

theorem witness_SingleHartRunsAreAdmitted :
    IsRun storingRun ∧ ((storingRun 0).harts.map Hart.id).Nodup ∧ (storingRun 2).allEnded = true ∧ FreshOneHart (storingRun 0) ∧
    (∃ n h p i, (storingRun n).execution.inst h p = some i) ∧
    Reaches storing (storingRun 1) ∧ (storingRun 1).history = [storeRecord] :=
  ⟨storingRun_isRun, by decide, by decide, by unfold FreshOneHart; decide, ⟨1, 0, 0, _, rfl⟩,
    .more (.here _) (storingRun_isRun 0), by decide⟩

/-- Two programs, the second at 0x3000. -/
def twoPrograms : State :=
  State.start Params.reset { entry := 0x1000, words := [0x00732223, 0x00432283] } [{ entry := 0x3000, words := [0x00432283] }]
    { bytes := [], scs := [], splits := [], count := 0 }

theorem witness_ResetMeetsTheInvariants :
    twoPrograms.harts.map Hart.id = [0, 1] ∧ twoPrograms.harts.map Hart.entry = [0x1000, 0x3000] ∧
    twoPrograms.textBytes 0x1004 4 = [0x83, 0x22, 0x43, 0x00] ∧ twoPrograms.textBytes 0x3000 4 = [0x83, 0x22, 0x43, 0x00] := by
  decide

end Sys2Proof.Tests
end

section
/-! SUPPORT. Where the next instruction is: after every instruction that goes on, pc is at the next word, at a target, or where it
was; so every step keeps an aligned pc aligned (30_encoding.md R133, 90_conflicts.md C7). -/

namespace Sys2Proof

/-! ### The offsets of decoded instructions -/

/-- If there is a row, its branch or jump offset is even. -/
def EvenRow (o : Option Instr) : Prop := ∀ i, o = some i → offsetEven i = true

theorem evenRow_none : EvenRow none := fun _ h => nomatch h

theorem evenRow_some {i : Instr} (h : offsetEven i = true) : EvenRow (some i) := fun _ hi => Option.some.inj hi ▸ h

theorem evenRow_ite {c : Prop} [Decidable c] {a b : Option Instr} (ha : EvenRow a) (hb : EvenRow b) :
    EvenRow (if c then a else b) := by
  split_ifs
  · exact ha
  · exact hb

/-- A J immediate ends in its constant zero bit. -/
theorem Fields.immJ_bit0 (f : Fields) : (!f.immJ.getLsbD 0) = true := by
  rw [Fields.immJ, BitVec.getLsbD_append]
  rfl

/-- A B immediate ends in its constant zero bit. -/
theorem Fields.immB_bit0 (f : Fields) : (!f.immB.getLsbD 0) = true := by
  rw [Fields.immB, BitVec.getLsbD_append]
  rfl

theorem evenRow_rowJal (f : Fields) : EvenRow (rowJal f) := evenRow_some f.immJ_bit0

theorem evenRow_rowBranch (f : Fields) : EvenRow (rowBranch f) := by
  have h := f.immB_bit0
  unfold rowBranch
  repeat refine evenRow_ite (evenRow_some h) ?_
  exact evenRow_none

/-- Only the rows of JAL and the branches have an offset; in every other row there is nothing to ask. -/
theorem evenRow_decodeFields (x : Xlen) (f : Fields) : EvenRow (decodeFields x f) := by
  unfold decodeFields
  iterate 2 refine evenRow_ite (evenRow_some rfl) ?_
  refine evenRow_ite (evenRow_rowJal f) (evenRow_ite ?_ (evenRow_ite (evenRow_rowBranch f) ?_))
  · exact evenRow_ite (evenRow_some rfl) evenRow_none
  · unfold rowLoad rowStore rowOpImm rowOp rowMiscMem rowSystem rowOpImm32 rowOp32 rowAmo rowLoadFp rowStoreFp rowMadd
      rowMsub rowNmsub rowNmadd rowOpFp
    repeat' apply evenRow_ite
    all_goals first | exact evenRow_none | exact evenRow_some rfl

theorem offsetEven_of_decode {x : Xlen} {e : Ext} {w : BitVec 32} {i : Instr} (h : decode x e w = .ok i) :
    offsetEven i = true := by
  unfold decode at h
  split_ifs at h
  split at h
  · cases h
  · rename_i j hj
    split_ifs at h
    cases h
    exact evenRow_decodeFields x _ _ hj

theorem offsetEven_of_decodeBytes {x : Xlen} {e : Ext} {bs rest : List Byte} {i : Instr}
    (h : decodeBytes x e bs = .ok (i, rest)) : offsetEven i = true := by
  unfold decodeBytes at h
  split at h
  · split at h
    · rename_i hd
      cases h
      exact offsetEven_of_decode hd
    · cases h
  · split_ifs at h
  · cases h

namespace Machine

/-- A fetched instruction has an even offset, where it has one. -/
theorem State.offsetEven_of_fetch {s : State} {i : Instr} (h : s.fetch = .ok i) : offsetEven i = true := by
  obtain ⟨-, rest, hd⟩ := State.fetch_ok h
  exact offsetEven_of_decodeBytes hd

/-! ### Where an instruction leaves pc -/

/-- pc after an instruction that goes on. -/
inductive PcEffect (i : Instr) (s t : State) : Prop where
  /-- at the following word -/
  | next : t.hart.pc = s.nextPc → PcEffect i s t
  /-- at the target of JAL or of a taken branch, which C7 allows -/
  | relative (n : Nat) (imm : BitVec n) : n ≤ 64 → (offsetEven i = true → (!imm.getLsbD 0) = true) →
      (s.params.ext.c = true ∨ (s.pcTarget imm).toNat % 4 = 0) → t.hart.pc = s.pcTarget imm → PcEffect i s t
  /-- at the target of JALR, which C7 allows -/
  | indirect (rs1 : Reg) (imm : BitVec 12) : (s.params.ext.c = true ∨ (s.indirectTarget rs1 imm).toNat % 4 = 0) →
      t.hart.pc = s.indirectTarget rs1 imm → PcEffect i s t
  /-- where it was: the last instruction of the stream -/
  | last : t.hart.pc = s.hart.pc → PcEffect i s t

variable {s t : State} {i : Instr}

theorem pc_setX {rd : Reg} {v : Word} (h : s.setX rd v i = .next t) : PcEffect i s t := by
  cases h
  exact .next (by simp)

theorem pc_branch {b : Bool} {imm : BitVec 13} (he : offsetEven i = true → (!imm.getLsbD 0) = true)
    (h : s.branch b (s.pcTarget imm) i = .next t) : PcEffect i s t := by
  obtain ⟨-, hc, rfl⟩ | ⟨-, rfl⟩ := State.branch_next h
  · exact .relative 13 imm (by omega) he hc (by simp)
  · exact .next (by simp)

theorem pc_csrOp {rd : Reg} {c : BitVec 12} {new : Word → Option Word} (h : s.csrOp rd c new i = .next t) :
    PcEffect i s t := by
  obtain ⟨old, -, ⟨-, rfl⟩ | ⟨v, -, rfl⟩⟩ := State.csrOp_next h <;> exact .next (by simp)

theorem pc_loadX {rd rs1 : Reg} {imm : BitVec 12} {n : Nat} {ext : Word → Word}
    (h : s.loadX rd rs1 imm n ext i = .next t) : PcEffect i s t := by
  obtain ⟨-, rfl⟩ := State.loadX_next h
  exact .next (by simp)

theorem pc_storeX {rs2 rs1 : Reg} {imm : BitVec 12} {n : Nat} (h : s.storeX rs2 rs1 imm n i = .next t) :
    PcEffect i s t := by
  obtain ⟨-, rfl⟩ := State.storeX_next h
  exact .next (by simp)

theorem pc_loadF {rd rs1 : Reg} {imm : BitVec 12} {n : Nat} {box : Word → Word} {d : Bool}
    (h : s.loadF rd rs1 imm n box d i = .next t) : PcEffect i s t := by
  obtain ⟨-, rfl⟩ := State.loadF_next h
  exact .next (by simp)

theorem pc_storeF {rs2 rs1 : Reg} {imm : BitVec 12} {n : Nat} {d : Bool}
    (h : s.storeF rs2 rs1 imm n d i = .next t) : PcEffect i s t := by
  obtain ⟨-, rfl⟩ := State.storeF_next h
  exact .next (by simp)

theorem pc_loadReserved {rd rs1 : Reg} {n : Nat} {an : Annot} (h : s.loadReserved rd rs1 n an i = .next t) :
    PcEffect i s t := by
  obtain ⟨-, rfl⟩ := State.loadReserved_next h
  exact .next (by simp)

theorem pc_storeConditional {rd rs2 rs1 : Reg} {n : Nat} {an : Annot}
    (h : s.storeConditional rd rs2 rs1 n an i = .next t) : PcEffect i s t := by
  obtain ⟨-, ⟨-, -, -, rfl⟩ | ⟨-, rfl⟩⟩ := State.storeConditional_next h
  · exact .next (by simp [State.scSuccess])
  · exact .next (by simp [State.scFailure])

theorem pc_amoOp {rd rs1 : Reg} {n : Nat} {g : Word → Word} {an : Annot} (h : s.amoOp rd rs1 n g an i = .next t) :
    PcEffect i s t := by
  obtain ⟨-, rfl⟩ := State.amoOp_next h
  exact .next (by simp)

theorem pc_setS {rd : Reg} {c : FlagMask} {r : FpResult} (h : s.setS rd c r i = .next t) : PcEffect i s t := by
  cases h
  exact .next (by simp)

theorem pc_setD {rd : Reg} {c : FlagMask} {r : FpResult} (h : s.setD rd c r i = .next t) : PcEffect i s t := by
  cases h
  exact .next (by simp)

theorem pc_setXF {rd : Reg} {c : FlagMask} {v : Word} {fl : FlagBits} (h : s.setXF rd c v fl i = .next t) :
    PcEffect i s t := by
  cases h
  exact .next (by simp)

theorem pc_withRounding {rm : BitVec 3} {k : RoundMode → Result} (hk : ∀ r, k r = .next t → PcEffect i s t)
    (h : s.withRounding rm k = .next t) : PcEffect i s t := by
  obtain ⟨r, -, hr⟩ := State.withRounding_next h
  exact hk r hr

/-- Every instruction that goes on, by the shared operation its meaning is. Where that operation is given a constant function
or a composed one, unification does not find it, and the meaning is opened first. -/
theorem exec_pc (h : exec i s = .next t) : PcEffect i s t := by
  cases i
  case jal rd imm =>
    obtain ⟨hc, rfl⟩ := State.jump_next h
    exact .relative 21 imm (by omega) id hc (by simp)
  case jalr rd rs1 imm =>
    obtain ⟨hc, rfl⟩ := State.jump_next h
    exact .indirect rs1 imm hc (by simp)
  case beq | bne | blt | bge | bltu | bgeu => exact pc_branch id h
  case lb | lh | lw | lbu | lhu | lwu | ld => exact pc_loadX h
  case sb | sh | sw | sd => exact pc_storeX h
  case lui | auipc | addi | slti | sltiu | xori | ori | andi | slli32 | srli32 | srai32 | add | sub | sll | slt | sltu | xor
     | srl | sra | or | and | slli | srli | srai | addiw | slliw | srliw | sraiw | addw | subw | sllw | srlw | sraw | mul
     | mulh | mulhsu | mulhu | div | divu | rem | remu | mulw | divw | divuw | remw | remuw | fmvXW | fclassS | fmvXD
     | fclassD => exact pc_setX h
  case fence | fenceI | fmvWX | fmvDX =>
    cases h
    exact .next (by simp)
  case ecall | ebreak =>
    cases h
    exact .last (by simp)
  case csrrw =>
    rw [exec, execCsrrw] at h
    exact pc_csrOp h
  case csrrwi =>
    rw [exec, execCsrrwi] at h
    exact pc_csrOp h
  case csrrs | csrrc | csrrsi | csrrci => exact pc_csrOp h
  case lrW | lrD => exact pc_loadReserved h
  case scW | scD => exact pc_storeConditional h
  case amoswapW | amoaddW | amoxorW | amoandW | amoorW | amominW | amomaxW | amominuW | amomaxuW | amoswapD | amoaddD | amoxorD
     | amoandD | amoorD | amominD | amomaxD | amominuD | amomaxuD => exact pc_amoOp h
  case flw =>
    rw [exec, execFlw] at h
    exact pc_loadF h
  case fld => exact pc_loadF h
  case fsw | fsd => exact pc_storeF h
  case fsgnjS | fsgnjnS | fsgnjxS | fminS | fmaxS => exact pc_setS h
  case fsgnjD | fsgnjnD | fsgnjxD | fminD | fmaxD => exact pc_setD h
  case feqS | fltS | fleS | feqD | fltD | fleD => exact pc_setXF h
  case fmaddS | fmsubS | fnmsubS | fnmaddS | faddS | fsubS | fmulS | fdivS | fsqrtS | fcvtSW | fcvtSWU | fcvtSL | fcvtSLU
     | fcvtSD => exact pc_withRounding (fun _ hr => pc_setS hr) h
  case fmaddD | fmsubD | fnmsubD | fnmaddD | faddD | fsubD | fmulD | fdivD | fsqrtD | fcvtDS | fcvtDW | fcvtDWU | fcvtDL
     | fcvtDLU => exact pc_withRounding (fun _ hr => pc_setD hr) h
  case fcvtWS | fcvtWUS | fcvtLS | fcvtLUS | fcvtWD | fcvtWUD | fcvtLD | fcvtLUD =>
    exact pc_withRounding (fun _ hr => pc_setXF hr) h

end Machine
end Sys2Proof
end

section
/-! SUPPORT. Every step keeps every pc aligned (10_state.md R23, 30_encoding.md R133). -/

namespace Sys2Proof.Machine

/-- A multiple of 2, and of 4 without compressed instructions (30_encoding.md R133). -/
def AlignedPc (c : Bool) (w : Word) : Prop := w.toNat % 2 = 0 ∧ (c = false → w.toNat % 4 = 0)

theorem pcAligned_iff {s : State} :
    Claims.PcAligned s ↔ ∀ h ∈ s.harts, AlignedPc s.params.ext.c (s.xlen.trunc h.pc) := Iff.rfl

/-- What C7 asks of a target makes it a multiple of 4, where it has to be one. -/
theorem alignedPc_of_target {c : Bool} {w : Word} (h2 : w.toNat % 2 = 0) (h4 : c = true ∨ w.toNat % 4 = 0) :
    AlignedPc c w := ⟨h2, fun hc => h4.resolve_left (by simp [hc])⟩

/-- 2^XLEN is a multiple of 4, so a residue modulo it is aligned as the number is. -/
theorem mod_bits_mod (x : Xlen) (a : Nat) : a % 2 ^ x.bits % 2 = a % 2 ∧ a % 2 ^ x.bits % 4 = a % 4 := by
  cases x <;> simp only [Xlen.bits] <;> omega

theorem AlignedPc.trunc {c : Bool} {w : Word} (h : AlignedPc c w) (x : Xlen) : AlignedPc c (x.trunc w) := by
  obtain ⟨m2, m4⟩ := mod_bits_mod x w.toNat
  rw [AlignedPc, Xlen.trunc_toNat, m2, m4]
  exact h

variable {s t : State} {i : Instr}

theorem State.alignedPc_nextPc {c : Bool} (h : AlignedPc c s.pc) : AlignedPc c s.nextPc := by
  obtain ⟨m2, m4⟩ := mod_bits_mod s.xlen (s.pc.toNat + 4)
  obtain ⟨h2, h4⟩ := h
  rw [AlignedPc, State.nextPc_toNat, m2, m4]
  exact ⟨by omega, fun hc => by have := h4 hc; omega⟩

/-- An offset with bit 0 clear is an even number. -/
theorem toInt_even_of_bit0 {n : Nat} {v : BitVec n} (h : (!v.getLsbD 0) = true) : v.toInt % 2 = 0 := by
  have he := even_of_not_bit0 v h
  cases n with
  | zero => rw [BitVec.toInt_zero_length]; rfl
  | succ n =>
    rw [BitVec.toInt_eq_toNat_cond, pow_succ]
    split_ifs
    · omega
    · push_cast
      omega

/-- A relative target from an even pc by an even offset is even. -/
theorem State.pcTarget_even {n : Nat} {v : BitVec n} (hn : n ≤ 64) (hpc : s.pc.toNat % 2 = 0)
    (hv : (!v.getLsbD 0) = true) : (s.pcTarget v).toNat % 2 = 0 := by
  have ht := s.pcTarget_toNat v hn
  have he := toInt_even_of_bit0 hv
  cases hx : s.xlen <;> rw [hx] at ht <;> simp only [Xlen.bits] at ht <;> omega

/-- JALR clears bit 0 of its target. -/
theorem State.indirectTarget_even (rs1 : Reg) (imm : BitVec 12) : (s.indirectTarget rs1 imm).toNat % 2 = 0 :=
  even_of_not_bit0 _ (by simp [State.indirectTarget])

/-- An instruction with an even offset keeps an aligned pc aligned. -/
theorem PcEffect.aligned (h : PcEffect i s t) (he : offsetEven i = true) (hs : AlignedPc s.params.ext.c s.pc) :
    AlignedPc s.params.ext.c (s.xlen.trunc t.hart.pc) := by
  cases h with
  | next hp => rw [hp]; exact (State.alignedPc_nextPc hs).trunc _
  | relative n imm hn hv hc hp =>
    rw [hp]
    exact (alignedPc_of_target (State.pcTarget_even hn hs.1 (hv he)) hc).trunc _
  | indirect rs1 imm hc hp =>
    rw [hp]
    exact (alignedPc_of_target (State.indirectTarget_even rs1 imm) hc).trunc _
  | last hp => rw [hp]; exact hs

/-- A turn keeps the parameters and the other harts. -/
theorem State.turn_outside (h : s.turn = .next t) : t.params = s.params ∧ t.others = s.others := by
  obtain ⟨-, rfl⟩ | ⟨-, -, rfl⟩ | ⟨-, -, i, -, hx⟩ := State.turn_next h
  · exact ⟨rfl, rfl⟩
  · exact ⟨rfl, rfl⟩
  · obtain ⟨hp, -, ho, -⟩ := exec_kept hx
    exact ⟨hp, ho⟩

/-- A turn keeps the pc of its hart aligned. -/
theorem State.turn_alignedPc (h : s.turn = .next t) (hs : AlignedPc s.params.ext.c s.pc) :
    AlignedPc s.params.ext.c (s.xlen.trunc t.hart.pc) := by
  obtain ⟨-, rfl⟩ | ⟨-, -, rfl⟩ | ⟨-, -, i, hi, hx⟩ := State.turn_next h
  · exact hs
  · exact hs
  · exact (exec_pc hx).aligned (State.offsetEven_of_fetch hi) hs

/-- Settles O57: only the hart that steps moves its pc, and it moves it to an aligned address. -/
theorem stepKeepsPcAligned : Obligations.StepKeepsPcAligned := by
  intro s t hs h
  obtain ⟨u, hu, rfl⟩ := step_next h
  obtain ⟨hp, ho⟩ := State.turn_outside hu
  obtain ⟨hyp, -, -, -, -, hyh⟩ := u.yield_fields
  rw [pcAligned_iff] at hs ⊢
  intro k hk
  rw [hyh, List.mem_append, List.mem_singleton, ho] at hk
  rw [State.xlen, hyp, hp]
  rcases hk with hk | rfl
  · exact hs k (List.mem_cons_of_mem _ hk)
  · exact State.turn_alignedPc hu (hs _ (List.mem_cons_self ..))

end Sys2Proof.Machine
end

section
/-! SUPPORT. Every step adds only sound records of the hart that steps, and memory changes only where they store. -/

namespace Sys2Proof.Machine

open Sys2Proof.Claims

variable {s t : State} {i : Instr} {a n : Nat} {an : Annot}

/-- Whether a record is sound is asked of the parameters alone. -/
theorem soundRecord_congr (h : t.params = s.params) (o : MemOp) : SoundRecord t o ↔ SoundRecord s o := by
  simp only [SoundRecord, Claims.size, State.xlen, h]

/-- An operation on a piece of an access that lies in main memory does so too. -/
theorem Within.piece (hw : Within s a n) {p : Nat × Nat} (hp : 0 < p.2 ∧ p.1 + p.2 ≤ n) :
    (∀ x, a + p.1 ≤ x ∧ x < a + p.1 + p.2 → regionOf s.params x = .main) ∧
    ((a + p.1 + p.2 : Nat) : Int) ≤ Claims.size s := by
  obtain ⟨-, -, hm, hs⟩ := hw
  refine ⟨fun x hx => ?_, ?_⟩
  · have := hm (x - a) (by omega)
    rwa [Nat.add_sub_of_le (by omega)] at this
  · have : ((a + p.1 + p.2 : Nat) : Int) ≤ (s.xlen.size : Int) := by exact_mod_cast (by omega)
    simpa [Claims.size, Xlen.size] using this

theorem soundRecord_loadOp (hw : Within s a n) {bs : List Byte} (hb : bs.length = n) (hc : an.acqRCpc = false)
    (hr : an.relRCpc = false) {p : Nat × Nat} (hp : 0 < p.2 ∧ p.1 + p.2 ≤ n) : SoundRecord s (s.loadOp a bs an p) := by
  obtain ⟨hm, hs⟩ := hw.piece hp
  have hl : min p.2 (bs.length - p.1) = p.2 := by omega
  exact ⟨.inl rfl, hp.1, by simp [State.loadOp, hl], rfl, rfl, hm, hs, by simp [State.loadOp], hc, hr⟩

theorem soundRecord_storeOp (hw : Within s a n) {bs : List Byte} (hb : bs.length = n) (hc : an.acqRCpc = false)
    (hr : an.relRCpc = false) (sc : Option Nat) {p : Nat × Nat} (hp : 0 < p.2 ∧ p.1 + p.2 ≤ n) :
    SoundRecord s (s.storeOp a bs an sc p) := by
  obtain ⟨hm, hs⟩ := hw.piece hp
  have hl : min p.2 (bs.length - p.1) = p.2 := by omega
  exact ⟨.inr rfl, hp.1, rfl, by simp [State.storeOp, hl], rfl, hm, hs, by simp [State.storeOp], hc, hr⟩

/-- What a step may add to the history of s, and what of memory it may change: sound records of the hart whose turn it is, at
its position, and bytes that one of them stores to. -/
def Appends (s t : State) : Prop :=
  ∃ ops, t.history = ops ++ s.history ∧ (∀ o ∈ ops, SoundRecord s o ∧ o.hart = s.hart.id ∧ o.inst = s.hart.pos) ∧
    ∀ x, t.byteAt x ≠ s.byteAt x → ∃ o ∈ ops, o.isStore = true ∧ o.has x

/-- A byte reads the same in two states with the same memory and parameters. -/
theorem State.byteAt_congr (hm : t.mem = s.mem) (hp : t.params = s.params) (x : Nat) : t.byteAt x = s.byteAt x := by
  simp only [State.byteAt, hm, hp]

/-- A byte that differs after a write is one of those written. -/
theorem State.byteAt_changed {bs : List Byte} (hm : t.mem = s.mem.write a bs) (hp : t.params = s.params) {x : Nat}
    (h : t.byteAt x ≠ s.byteAt x) : a ≤ x ∧ x < a + bs.length := by
  by_contra hx
  apply h
  simp only [State.byteAt, hm, hp, Memory.at?_write_of_not_mem _ _ _ _ hx]

theorem appends_of_memEffect (hp : t.params = s.params) (h : MemEffect s t) : Appends s t := by
  cases h with
  | quiet hm hh => exact ⟨[], hh, by simp, fun x hx => absurd (State.byteAt_congr hm hp x) hx⟩
  | load a n ps an hw hcut hc hr _ hm hh =>
    refine ⟨_, hh, fun o ho => ?_, fun x hx => absurd (State.byteAt_congr hm hp x) hx⟩
    obtain ⟨p, hps, rfl⟩ := List.mem_map.1 (List.mem_reverse.1 ho)
    exact ⟨soundRecord_loadOp hw (s.memRead_length a n) hc hr (hcut.2.1 p hps), rfl, rfl⟩
  | store a n ps bs an sc hw hcut _ hb hc hr _ hm hh =>
    refine ⟨_, hh, fun o ho => ?_, fun x hx => ?_⟩
    · obtain ⟨p, hps, rfl⟩ := List.mem_map.1 (List.mem_reverse.1 ho)
      exact ⟨soundRecord_storeOp hw hb hc hr sc (hcut.2.1 p hps), rfl, rfl⟩
    · obtain ⟨h1, h2⟩ := State.byteAt_changed hm hp hx
      obtain ⟨p, hps, h3, h4⟩ := hcut.2.2 (x - a) (by omega)
      exact ⟨_, List.mem_reverse.2 (List.mem_map_of_mem hps), rfl, show a + p.1 ≤ x ∧ x < a + p.1 + p.2 by omega⟩
  | amo a n bs an hw _ hb hc hr _ hm hh =>
    refine ⟨[_], hh, fun o ho => ?_, fun x hx => ?_⟩
    · obtain rfl := List.mem_singleton.1 ho
      obtain ⟨hmain, hs⟩ := hw.piece (p := (0, n)) ⟨hw.1, by simp⟩
      exact ⟨⟨.inl rfl, hw.1, by simp, by simp [hb], rfl, hmain, hs, fun _ => rfl, hc, hr⟩, rfl, rfl⟩
    · exact ⟨_, List.mem_singleton.2 rfl, rfl, hb ▸ State.byteAt_changed hm hp hx⟩

/-- A turn that runs an instruction adds what the instruction does; any other adds nothing. -/
theorem State.turn_appends (h : s.turn = .next t) : Appends s t := by
  obtain ⟨-, rfl⟩ | ⟨-, -, rfl⟩ | ⟨-, -, i, -, hx⟩ := State.turn_next h
  · exact ⟨[], rfl, by simp, fun x hx => absurd rfl hx⟩
  · exact ⟨[], rfl, by simp, fun x hx => absurd (by simp) hx⟩
  · exact appends_of_memEffect (s := s.noteFetch) (exec_kept hx).1 (exec_effect hx).1

/-- Settles O58: what the turn of the hart adds is sound, and passing the turn on changes neither memory nor the history. -/
theorem stepKeepsHistorySound : Obligations.StepKeepsHistorySound := by
  intro s t hs h
  obtain ⟨u, hu, rfl⟩ := step_next h
  obtain ⟨hyp, hym, hyh, -⟩ := u.yield_fields
  obtain ⟨ops, hh, hops, hx⟩ := State.turn_appends hu
  have hp : u.yield.params = s.params := hyp.trans (State.turn_outside hu).1
  refine ⟨fun o ho => ?_, ops, hyh.trans hh, fun o ho => (hops o ho).2, fun x hne => ?_⟩
  · rw [soundRecord_congr hp]
    rw [hyh, hh, List.mem_append] at ho
    exact ho.elim (fun ho => (hops o ho).1) (hs o)
  · rw [State.byteAt_congr hym hyp] at hne
    exact hx x hne

end Sys2Proof.Machine
end

section
/-! SUPPORT. The control and status registers, the register files, reset and the start of a run. -/

namespace Sys2Proof.Machine

open Sys2Proof.Claims

variable (s : State)

/-! ### fflags, frm and fcsr -/

theorem State.readCsr_fflags : s.readCsr 1 = some (s.hart.fflags.setWidth 64) := rfl

theorem State.readCsr_frm : s.readCsr 2 = some (s.hart.frm.setWidth 64) := rfl

theorem State.readCsr_fcsr : s.readCsr 3 = some ((s.hart.frm ++ s.hart.fflags).setWidth 64) := rfl

theorem State.writeCsr_fflags (v : Word) :
    (s.writeCsr 1 v).hart.fflags = v.setWidth 5 ∧ (s.writeCsr 1 v).hart.frm = s.hart.frm := ⟨rfl, rfl⟩

theorem State.writeCsr_frm (v : Word) :
    (s.writeCsr 2 v).hart.frm = v.setWidth 3 ∧ (s.writeCsr 2 v).hart.fflags = s.hart.fflags := ⟨rfl, rfl⟩

theorem State.writeCsr_fcsr (v : Word) :
    (s.writeCsr 3 v).hart.frm = v.extractLsb' 5 3 ∧ (s.writeCsr 3 v).hart.fflags = v.setWidth 5 := ⟨rfl, rfl⟩

/-- A field of at most 64 bits in its container is the same number. -/
theorem toNat_container {n : Nat} (v : BitVec n) (h : n ≤ 64) : (v.setWidth 64).toNat = v.toNat := by
  rw [BitVec.toNat_setWidth, Nat.mod_eq_of_lt (lt_of_lt_of_le v.isLt (Nat.pow_le_pow_right (by omega) h))]

/-- fcsr in its container: frm in bits 7-5 and fflags in bits 4-0. -/
theorem toNat_fcsr (m : BitVec 3) (f : BitVec 5) : ((m ++ f).setWidth 64 : Word).toNat = m.toNat * 32 + f.toNat := by
  rw [toNat_container _ (by omega)]
  exact append_toNat m f

theorem mem_flagUnits (u : DepUnit) : u ∈ flagUnits ↔ ∃ k, u = .flag k := by
  simp only [flagUnits, List.mem_cons, List.not_mem_nil, or_false]
  constructor
  · rintro (h | h | h | h | h) <;> exact ⟨_, h⟩
  · rintro ⟨k, rfl⟩
    fin_cases k <;> simp

/-- Settles O12: the three CSRs are views of frm and fflags. -/
theorem fcsrAliasesFrmAndFflags : Obligations.FcsrAliasesFrmAndFflags := by
  refine ⟨fun s v => ⟨⟨_, _, _, s.readCsr_fcsr, s.readCsr_frm, s.readCsr_fflags, ?_, ?_, ?_⟩,
    ⟨_, _, State.readCsr_frm _, State.readCsr_fflags _, ?_, ?_⟩,
    ⟨_, _, State.readCsr_fcsr _, s.readCsr_frm, ?_⟩, ⟨_, _, State.readCsr_fcsr _, s.readCsr_fflags, ?_⟩⟩,
    fun u => ?_, fun u => ?_, fun u => mem_flagUnits u⟩
  · rw [toNat_fcsr, toNat_container _ (by omega), toNat_container _ (by omega)]
  · rw [toNat_container _ (by omega)]
    exact s.hart.frm.isLt
  · rw [toNat_container _ (by omega)]
    exact s.hart.fflags.isLt
  · rw [(s.writeCsr_fcsr v).1, toNat_container _ (by omega)]
    exact extract_toNat 5 3 v
  · rw [(s.writeCsr_fcsr v).2, toNat_container _ (by omega), BitVec.toNat_setWidth]
  · rw [toNat_fcsr, (s.writeCsr_fflags v).1, (s.writeCsr_fflags v).2, toNat_container _ (by omega), BitVec.toNat_setWidth]
  · rw [toNat_fcsr, (s.writeCsr_frm v).1, (s.writeCsr_frm v).2, toNat_container _ (by omega), BitVec.toNat_setWidth]
  · show u ∈ .frm :: flagUnits ↔ _
    rw [List.mem_cons, mem_flagUnits]
  · show u ∈ [.frm] ↔ _
    rw [List.mem_singleton]

/-! ### Register files -/

theorem size_eq_two_pow : Claims.size s = ((2 ^ s.xlen.bits : Nat) : Int) := by simp [Claims.size]

/-- Settles O11, by the laws of the two register files, with the residues written as numbers. -/
theorem registerFiles : Obligations.RegisterFiles := by
  intro s r q v
  refine ⟨s.readX_zero, s.writeX_zero v, ?_, ?_, fun hr => ?_, fun hq => s.readX_writeX_other hq v, ?_, fun hq => ?_⟩
  · rw [size_eq_two_pow]
    exact_mod_cast s.readX_lt r
  · rw [size_eq_two_pow]
    exact_mod_cast s.pc_lt
  · rw [s.readX_writeX_same hr, Xlen.trunc_toNat, size_eq_two_pow]
    exact Int.natCast_emod _ _
  · rw [s.readF_writeF, if_pos rfl, s.truncF_toNat]
  · rw [s.readF_writeF, if_neg hq]

/-! ### Reset and the start of a run -/

theorem State.reset_eq_start :
    State.reset = State.start Params.reset { entry := 0, words := [] } [] { bytes := [], scs := [], splits := [], count := 0 } :=
  rfl

/-- Settles O10: every clause is the value of a field, and every register of the files reads zero. -/
theorem resetState : Obligations.ResetState := by
  refine ⟨rfl, rfl, fun _ => rfl, fun _ => rfl, rfl, rfl, rfl, rfl, rfl, rfl, rfl, rfl, rfl, rfl, rfl, rfl, fun r => ?_,
    fun r => ?_, rfl⟩
  · unfold State.readX
    split_ifs
    · rfl
    · simp [State.reset, Hart.start, State.xlen, Params.reset, Xlen.trunc]
  · simp [State.readF, State.reset, Hart.start, State.truncF, State.wideF]

section Start

variable (p : Params) (first : Program) (rest : List Program) (d : Draws)

theorem bookkept_start (id entry len : Nat) : Bookkept (Hart.start id entry len) := ⟨rfl, rfl, rfl⟩

/-- A hart of the start of a run is the start of some program. -/
theorem mem_startHarts {n : Nat} {ps : List Program} {h : Hart} (hh : h ∈ startHarts n ps) :
    ∃ id, ∃ q ∈ ps, h = Hart.start id q.entry q.words.length := by
  obtain ⟨k, hk⟩ := List.mem_iff_getElem?.1 hh
  rw [startHarts_getElem?] at hk
  obtain ⟨q, hq, rfl⟩ := Option.map_eq_some_iff.1 hk
  exact ⟨_, q, List.mem_of_getElem? hq, rfl⟩

theorem startHarts_ids (n : Nat) (ps : List Program) : (startHarts n ps).map Hart.id = List.range' n ps.length := by
  induction ps generalizing n with
  | nil => rfl
  | cons q ps ih => rw [startHarts, List.map_cons, ih, List.length_cons, List.range'_succ]; rfl

theorem startHarts_pcs (n : Nat) (ps : List Program) :
    (startHarts n ps).map (fun h => h.pc) = ps.map (fun q => BitVec.ofNat 64 q.entry) := by
  induction ps generalizing n with
  | nil => rfl
  | cons q ps ih => rw [startHarts, List.map_cons, ih]; rfl

/-- Nothing performed is sound and recorded. -/
theorem historySound_of_nil {s : State} (h : s.history = []) : HistorySound s := fun o ho => by simp [h] at ho

theorem recorded_of_nil {s : State} (h : s.history = []) : Recorded s := by
  have none (o : MemOp) : ¬ o ∈ s.history := by simp [h]
  exact ⟨by simp [h], fun a _ _ ha => absurd ha (none a), fun o ho => absurd ho (none o)⟩

theorem memorySound_of_nil {s : State} (hm : s.mem = []) (hf : s.fetched = []) : MemorySound s :=
  ⟨hm ▸ List.Pairwise.nil, hf ▸ List.Pairwise.nil, fun a ha => by simp [hf] at ha⟩

/-- An entry that is a multiple of 4 is an aligned pc. -/
theorem alignedPc_entry {entry : Nat} (h : entry % 4 = 0) (c : Bool) : AlignedPc c (BitVec.ofNat 64 entry) := by
  rw [AlignedPc, BitVec.toNat_ofNat]
  omega

theorem pcAligned_start (h : ∀ q ∈ first :: rest, q.entry % 4 = 0) : PcAligned (State.start p first rest d) := by
  rw [pcAligned_iff, State.start_harts]
  intro k hk
  obtain ⟨id, q, hq, rfl⟩ := mem_startHarts hk
  exact (alignedPc_entry (h q hq) _).trunc _

theorem start_bookkept {h : Hart} (hh : h ∈ (State.start p first rest d).harts) :
    h.ended = false ∧ h.stream = [] ∧ Bookkept h := by
  rw [State.start_harts] at hh
  obtain ⟨id, q, -, rfl⟩ := mem_startHarts hh
  exact ⟨rfl, rfl, bookkept_start ..⟩

theorem start_fresh : FreshOneHart (State.start p first [] d) := ⟨rfl, rfl, rfl, rfl, rfl, rfl, rfl, rfl⟩

end Start

/-- Settles O60: every hart of a start has performed nothing, and reset is the start of one hart with no word. -/
theorem resetMeetsTheInvariants : Obligations.ResetMeetsTheInvariants := by
  refine ⟨?_, State.reset_eq_start, fun h hh => ?_, memorySound_of_nil rfl rfl, ?_, historySound_of_nil rfl,
    recorded_of_nil rfl, by decide, ?_⟩
  · rintro p first rest d _ rfl
    refine ⟨?_, ?_, fun h hh => start_bookkept _ _ _ _ hh, rfl, memorySound_of_nil rfl rfl, historySound_of_nil rfl,
      recorded_of_nil rfl, pcAligned_start _ _ _ _, ?_⟩
    · rw [State.start_harts, startHarts_ids, List.range_eq_range']
      rfl
    · rw [State.start_harts, startHarts_pcs]
    · rintro rfl
      exact start_fresh ..
  · exact (start_bookkept _ _ _ _ (State.reset_eq_start ▸ hh)).2.2
  · rw [State.reset_eq_start]
    exact pcAligned_start _ _ _ _ (by simp)
  · rw [State.reset_eq_start]
    exact start_fresh ..

end Sys2Proof.Machine
end

section
/-! SUPPORT. The numbers of a floating-point format: its magnitude patterns in order, and the values of its patterns. -/

namespace Sys2Proof.Machine

open Sys2Proof.Claims

/-- What every format here has: two exponent bits or more, and a fraction bit or more. -/
structure Fmt.Regular (f : Fmt) : Prop where
  two_le_exp : 2 ≤ f.expBits
  one_le_frac : 1 ≤ f.fracBits

theorem Fmt.regular_of_standard {f : Fmt} (h : Standard f) : f.Regular := by
  obtain rfl | rfl := h <;> exact ⟨by decide, by decide⟩

variable {f : Fmt}

/-! ### Magnitudes -/

/-- The magnitude of a pattern without its sign, as if the exponent had no upper bound: the patterns below 2^(fracBits + 1) are
multiples of 2^qmin, and each further 2^fracBits patterns have twice the spacing of those before. -/
noncomputable def Fmt.mag (f : Fmt) (b : Nat) : ℝ :=
  ((b - (b / 2 ^ f.fracBits - 1) * 2 ^ f.fracBits : Nat) : ℝ) * (2 : ℝ) ^ (f.qmin + (b / 2 ^ f.fracBits - 1 : Nat))

/-- The pattern of n units of 2^(qmin + k), where n fits the significand. -/
theorem Fmt.mag_scaled (f : Fmt) {k n : Nat} (hk : k = 0 ∨ 2 ^ f.fracBits ≤ n) (hn : n ≤ 2 ^ (f.fracBits + 1)) :
    f.mag (k * 2 ^ f.fracBits + n) = n * (2 : ℝ) ^ (f.qmin + k) := by
  have hp := Nat.two_pow_pos f.fracBits
  rw [pow_succ] at hn
  unfold Fmt.mag
  generalize 2 ^ f.fracBits = P at *
  have hdiv : (k * P + n) / P = k + n / P := by rw [Nat.add_comm, Nat.add_mul_div_right _ _ hp, Nat.add_comm]
  rw [hdiv]
  rcases Nat.lt_or_ge n P with h1 | h1
  · obtain rfl : k = 0 := by omega
    simp [Nat.div_eq_of_lt h1]
  · rcases Nat.lt_or_ge n (P * 2) with h2 | h2
    · rw [show n / P = 1 from Nat.div_eq_of_lt_le (by omega) (by omega)]
      simp
    · obtain rfl : n = P * 2 := by omega
      rw [Nat.mul_div_cancel_left _ hp, show k + 2 - 1 = k + 1 by omega, Nat.add_mul, Nat.one_mul,
        show k * P + P * 2 - (k * P + P) = P by omega]
      push_cast
      rw [← add_assoc, zpow_add_one₀ two_ne_zero]
      ring

/-- Every pattern is of this form. -/
theorem Fmt.exists_scaled (f : Fmt) (b : Nat) :
    ∃ k n, b = k * 2 ^ f.fracBits + n ∧ (k = 0 ∨ 2 ^ f.fracBits ≤ n) ∧ n < 2 ^ (f.fracBits + 1) := by
  have hp := Nat.two_pow_pos f.fracBits
  have hb := Nat.div_add_mod b (2 ^ f.fracBits)
  have hm := Nat.mod_lt b hp
  rw [pow_succ]
  rcases Nat.eq_zero_or_pos (b / 2 ^ f.fracBits) with h | h
  · exact ⟨0, b, by omega, .inl rfl, by rw [h] at hb; omega⟩
  · obtain ⟨k, hk⟩ := Nat.exists_eq_add_of_le' h
    refine ⟨k, 2 ^ f.fracBits + b % 2 ^ f.fracBits, ?_, .inr (by omega), by omega⟩
    rw [hk] at hb
    calc b = 2 ^ f.fracBits * (k + 1) + b % 2 ^ f.fracBits := hb.symm
      _ = _ := by ring

theorem Fmt.mag_strictMono (f : Fmt) : StrictMono f.mag := by
  refine strictMono_nat_of_lt_succ fun b => ?_
  obtain ⟨k, n, rfl, hk, hn⟩ := f.exists_scaled b
  rw [Nat.add_assoc, f.mag_scaled hk hn.le, f.mag_scaled (by omega) (by omega)]
  have : (0 : ℝ) < 2 ^ (f.qmin + k) := zpow_pos two_pos _
  push_cast
  nlinarith

@[simp] theorem Fmt.mag_zero (f : Fmt) : f.mag 0 = 0 := by simp [Fmt.mag]

theorem Fmt.mag_nonneg (f : Fmt) (b : Nat) : 0 ≤ f.mag b := by
  rw [← f.mag_zero]
  exact f.mag_strictMono.monotone (Nat.zero_le b)

/-! ### Values -/

/-- 1 or -1. -/
noncomputable def signUnit (neg : Bool) : ℝ := if neg then -1 else 1

theorem Fmt.infBits_lt_signBit (f : Fmt) : f.infBits < f.signBit := by
  unfold Fmt.infBits Fmt.signBit
  have := Nat.two_pow_pos f.expBits
  rw [pow_add]
  exact Nat.mul_lt_mul_of_pos_right (by omega) (Nat.two_pow_pos _)

theorem Fmt.Regular.infBits_pos (hf : f.Regular) : 0 < f.infBits := by
  have : 2 ^ 2 ≤ 2 ^ f.expBits := Nat.pow_le_pow_right two_pos hf.two_le_exp
  exact Nat.mul_pos (by omega) (Nat.two_pow_pos _)

/-- The exponent and fraction fields of a pattern are those of its magnitude pattern. -/
theorem Fmt.fields_mod_signBit (f : Fmt) (b : Nat) :
    b % f.signBit / 2 ^ f.fracBits = f.expField b ∧ b % f.signBit % 2 ^ f.fracBits = f.fracField b := by
  rw [Fmt.signBit, add_comm, pow_add]
  exact ⟨Nat.mod_mul_right_div_self .., Nat.mod_mod_of_dvd _ (Dvd.intro _ rfl)⟩

theorem Fmt.lt_infBits_iff (f : Fmt) (c : Nat) : c < f.infBits ↔ c / 2 ^ f.fracBits < 2 ^ f.expBits - 1 :=
  (Nat.div_lt_iff_lt_mul (Nat.two_pow_pos _)).symm

/-- A pattern has a value exactly when its magnitude pattern is below that of infinity; it is that magnitude with the sign. -/
theorem Fmt.valueOf_eq (hf : f.Regular) (b : Nat) :
    valueOf f b = if b % f.signBit < f.infBits then some (signUnit (f.neg b) * f.mag (b % f.signBit)) else none := by
  obtain ⟨he, hfr⟩ := f.fields_mod_signBit b
  have hlt := f.lt_infBits_iff (b % f.signBit)
  have hsplit := Nat.div_add_mod' (b % f.signBit) (2 ^ f.fracBits)
  have hmax : 2 ^ 2 ≤ 2 ^ f.expBits := Nat.pow_le_pow_right two_pos hf.two_le_exp
  have hexp : f.expField b < 2 ^ f.expBits := Nat.mod_lt _ (Nat.two_pow_pos _)
  have hfrac : f.fracField b < 2 ^ f.fracBits := Nat.mod_lt _ (Nat.two_pow_pos _)
  rw [he] at hlt hsplit
  rw [hfr] at hsplit
  unfold valueOf Fmt.datum
  by_cases h1 : f.expField b = 2 ^ f.expBits - 1
  · rw [if_pos h1, if_neg (fun h => absurd (hlt.1 h) (by omega))]
    split_ifs <;> rfl
  · rw [if_neg h1, if_pos (hlt.2 (by omega)), ← hsplit]
    by_cases h0 : f.expField b = 0
    · rw [if_pos h0, h0, f.mag_scaled (.inl rfl) (by rw [pow_succ]; omega)]
      exact congrArg some (by rw [mul_assoc]; simp [signUnit])
    · rw [if_neg h0]
      obtain ⟨k, hk⟩ := Nat.exists_eq_succ_of_ne_zero h0
      rw [hk, Nat.succ_mul, Nat.add_assoc, f.mag_scaled (.inr (by omega)) (by rw [pow_succ]; omega)]
      exact congrArg some (mul_assoc ..)

/-- Every value of the format is a magnitude below infinity, with a sign. -/
theorem Fmt.exists_of_valueOf (hf : f.Regular) {c : Nat} {w : ℝ} (h : valueOf f c = some w) :
    ∃ neg, ∃ a < f.infBits, w = signUnit neg * f.mag a := by
  rw [Fmt.valueOf_eq hf] at h
  split_ifs at h with hc
  exact ⟨_, _, hc, (Option.some.inj h).symm⟩

theorem Fmt.withSign_mod (f : Fmt) (neg : Bool) {b : Nat} (h : b < f.signBit) : f.withSign neg b % f.signBit = b := by
  unfold Fmt.withSign
  split_ifs
  · rw [Nat.add_mod_right, Nat.mod_eq_of_lt h]
  · exact Nat.mod_eq_of_lt h

theorem Fmt.neg_withSign (f : Fmt) (neg : Bool) {b : Nat} (h : b < f.signBit) : f.neg (f.withSign neg b) = neg := by
  have hs : 0 < f.signBit := Nat.two_pow_pos _
  unfold Fmt.neg Fmt.withSign
  cases neg
  · simp [Nat.div_eq_of_lt h]
  · simp [Nat.add_div_right _ hs, Nat.div_eq_of_lt h]

theorem Fmt.valueOf_withSign (hf : f.Regular) (neg : Bool) {b : Nat} (h : b < f.infBits) :
    valueOf f (f.withSign neg b) = some (signUnit neg * f.mag b) := by
  have hs := h.trans f.infBits_lt_signBit
  rw [Fmt.valueOf_eq hf, f.withSign_mod neg hs, f.neg_withSign neg hs, if_pos h]

theorem Fmt.valueOf_infinity (hf : f.Regular) (neg : Bool) : valueOf f (f.withSign neg f.infBits) = none := by
  rw [Fmt.valueOf_eq hf, f.withSign_mod neg f.infBits_lt_signBit, if_neg (lt_irrefl _)]

end Sys2Proof.Machine
end

section
/-! SUPPORT. Rounding between two neighbours of a rising scale: of the multiples of a unit, and of the magnitudes of a format. -/

namespace Sys2Proof.Machine

open Sys2Proof.Claims

/-- The mode takes a magnitude x between the neighbours a and b, the first of number n, to b. -/
def RoundsAway (rm : RoundMode) (neg : Bool) (n : Nat) (a b x : ℝ) : Prop :=
  match rm with
  | .rne => a + b < 2 * x ∨ (a + b = 2 * x ∧ n % 2 = 1)
  | .rtz => False
  | .rdn => neg = true ∧ x ≠ a
  | .rup => neg = false ∧ x ≠ a
  | .rmm => a + b ≤ 2 * x

/-- x is between entries number n and n + 1 of a scale g, and the mode rounds it to entry number b. -/
structure RoundsOn (g : Nat → ℝ) (rm : RoundMode) (neg : Bool) (x : ℝ) (n b : Nat) : Prop where
  le : g n ≤ x
  lt : x < g (n + 1)
  value : (RoundsAway rm neg n (g n) (g (n + 1)) x ∧ b = n + 1) ∨ (¬RoundsAway rm neg n (g n) (g (n + 1)) x ∧ b = n)

/-- A number on the scale stays. -/
theorem not_roundsAway_self {rm : RoundMode} {neg : Bool} {n : Nat} {a b : ℝ} (h : a < b) : ¬RoundsAway rm neg n a b a := by
  cases rm <;> simp only [RoundsAway, ne_eq, not_true_eq_false, and_false, not_false_eq_true, not_or, not_lt, not_le]
  case rne => exact ⟨by linarith, fun hn => by linarith [hn.1]⟩
  case rmm => linarith

/-- What a mode does depends on the ratios of the distances and on the parity of the number only. -/
theorem roundsAway_scale {rm : RoundMode} {neg : Bool} {n n' : Nat} {a b x u : ℝ} (hu : 0 < u) (hn : n' % 2 = n % 2) :
    RoundsAway rm neg n' (a * u) (b * u) (x * u) ↔ RoundsAway rm neg n a b x := by
  have h1 : a * u + b * u = (a + b) * u := by ring
  have h2 : 2 * (x * u) = 2 * x * u := by ring
  cases rm <;> simp only [RoundsAway, h1, h2, hn, mul_lt_mul_iff_left₀ hu, mul_le_mul_iff_left₀ hu, ne_eq,
    mul_left_inj' hu.ne']

namespace RoundsOn

variable {g : Nat → ℝ} {rm : RoundMode} {neg : Bool} {x : ℝ} {n b : Nat}

/-- The result is exact only when the number is on the scale. -/
theorem eq_iff (h : RoundsOn g rm neg x n b) : g b = x ↔ g n = x := by
  rcases h.value with ⟨ha, rfl⟩ | ⟨-, rfl⟩
  · have hlt := h.lt
    refine ⟨fun he => by linarith, fun he => ?_⟩
    rw [← he] at ha hlt
    exact absurd ha (not_roundsAway_self hlt)
  · rfl

theorem le_result (h : RoundsOn g rm neg x n b) : n ≤ b ∧ b ≤ n + 1 := by
  rcases h.value with ⟨-, rfl⟩ | ⟨-, rfl⟩ <;> omega

/-- A unit of one scale may be a stretch of another, if the stretch begins at an even number. -/
theorem transfer {y u : ℝ} {o r : Nat} (h : RoundsOn (fun k => (k : ℝ)) rm neg y n r) (hu : 0 < u) (ho : o % 2 = 0)
    (hn : g (o + n) = n * u) (hn1 : g (o + (n + 1)) = (n + 1 : Nat) * u) :
    RoundsOn g rm neg (y * u) (o + n) (o + r) := by
  have hs := roundsAway_scale (rm := rm) (neg := neg) (a := n) (b := (n + 1 : Nat)) (x := y) hu
    (show (o + n) % 2 = n % 2 by omega)
  refine ⟨?_, ?_, ?_⟩
  · rw [hn]
    exact mul_le_mul_of_nonneg_right h.le hu.le
  · rw [Nat.add_assoc, hn1]
    exact mul_lt_mul_of_pos_right h.lt hu
  · rw [Nat.add_assoc, hn, hn1, hs]
    exact h.value.imp (fun k => ⟨k.1, by omega⟩) (fun k => ⟨k.1, by omega⟩)

end RoundsOn

/-! ### Rounding to a multiple of a unit -/

/-- The bits shifted out decide as the number they stand for does. -/
theorem roundUp_iff (rm : RoundMode) (neg : Bool) {quo rem sh : Nat} :
    roundUp rm neg quo rem sh = true ↔
      RoundsAway rm neg quo quo (quo + 1 : Nat) (quo + (rem : ℝ) / (2 : ℝ) ^ sh) := by
  have hp : (0 : ℝ) < 2 ^ sh := by positivity
  have hsum : (quo : ℝ) + ((quo + 1 : Nat) : ℝ) = 2 * quo + 1 := by push_cast; ring
  have hx : 2 * ((quo : ℝ) + (rem : ℝ) / 2 ^ sh) = 2 * quo + 2 * rem / 2 ^ sh := by ring
  have hlt : (2 * (quo : ℝ) + 1 < 2 * quo + 2 * rem / 2 ^ sh) ↔ 2 ^ sh < 2 * rem := by
    rw [add_lt_add_iff_left, one_lt_div hp]
    exact_mod_cast Iff.rfl
  have hle : (2 * (quo : ℝ) + 1 ≤ 2 * quo + 2 * rem / 2 ^ sh) ↔ 2 ^ sh ≤ 2 * rem := by
    rw [add_le_add_iff_left, one_le_div hp]
    exact_mod_cast Iff.rfl
  have heq : (2 * (quo : ℝ) + 1 = 2 * quo + 2 * rem / 2 ^ sh) ↔ 2 * rem = 2 ^ sh := by
    rw [add_right_inj, eq_div_iff hp.ne', one_mul, eq_comm]
    exact_mod_cast Iff.rfl
  have hne : ((quo : ℝ) + (rem : ℝ) / 2 ^ sh ≠ quo) ↔ rem ≠ 0 := by simp
  have hpos := Nat.two_pow_pos sh
  cases rm <;> simp only [roundUp, RoundsAway, hsum, hx, hlt, hle, heq, hne, Bool.or_eq_true, Bool.and_eq_true, Bool.not_eq_true',
    decide_eq_true_eq, Bool.false_eq_true]
  case rmm => omega

/-- With the place at or below the last bit of m nothing is shifted out. -/
theorem roundAt_of_le (rm : RoundMode) (neg : Bool) (m : Nat) {e q : Int} (h : q ≤ e) :
    ∃ n, RoundsOn (fun k => (k : ℝ)) rm neg (m * (2 : ℝ) ^ (e - q)) n (roundAt rm neg m e q).1 ∧
      ((roundAt rm neg m e q).2 = true ↔ (n : ℝ) ≠ m * (2 : ℝ) ^ (e - q)) := by
  obtain ⟨k, hk⟩ := Int.eq_ofNat_of_zero_le (sub_nonneg.2 h)
  have hv : (m : ℝ) * (2 : ℝ) ^ (e - q) = ((m * 2 ^ (e - q).toNat : Nat) : ℝ) := by
    rw [hk]
    simp
  have hlt : ((m * 2 ^ (e - q).toNat : Nat) : ℝ) < ((m * 2 ^ (e - q).toNat + 1 : Nat) : ℝ) := by
    exact_mod_cast Nat.lt_succ_self _
  rw [roundAt, if_pos h, hv]
  exact ⟨_, ⟨le_refl _, hlt, .inr ⟨not_roundsAway_self hlt, rfl⟩⟩, by simp⟩

/-- With the place above it, quotient and remainder by 2^(q - e) are the whole and the rest. -/
theorem roundAt_of_lt (rm : RoundMode) (neg : Bool) (m : Nat) {e q : Int} (h : e < q) :
    ∃ n, RoundsOn (fun k => (k : ℝ)) rm neg (m * (2 : ℝ) ^ (e - q)) n (roundAt rm neg m e q).1 ∧
      ((roundAt rm neg m e q).2 = true ↔ (n : ℝ) ≠ m * (2 : ℝ) ^ (e - q)) := by
  obtain ⟨sh, hsh⟩ := Int.eq_ofNat_of_zero_le (show 0 ≤ q - e by omega)
  have hp : (0 : ℝ) < 2 ^ sh := by positivity
  have hmod : ((m % 2 ^ sh : Nat) : ℝ) < 2 ^ sh := by exact_mod_cast Nat.mod_lt _ (Nat.two_pow_pos sh)
  have hv : (m : ℝ) * (2 : ℝ) ^ (e - q) = (m / 2 ^ sh : Nat) + ((m % 2 ^ sh : Nat) : ℝ) / (2 : ℝ) ^ sh := by
    have hm : (m : ℝ) = 2 ^ sh * (m / 2 ^ sh : Nat) + (m % 2 ^ sh : Nat) := by
      exact_mod_cast (Nat.div_add_mod m (2 ^ sh)).symm
    rw [show e - q = -(sh : Int) by omega, zpow_neg, zpow_natCast, eq_comm, ← sub_eq_zero]
    field_simp
    linarith
  rw [roundAt, if_neg (by omega)]
  simp only [hsh, Int.toNat_natCast, hv]
  refine ⟨m / 2 ^ sh, ⟨?_, ?_, ?_⟩, ?_⟩
  · exact le_add_of_nonneg_right (by positivity)
  · push_cast
    exact (add_lt_add_iff_left _).2 ((div_lt_one hp).2 hmod)
  · have hup := roundUp_iff rm neg (quo := m / 2 ^ sh) (rem := m % 2 ^ sh) (sh := sh)
    by_cases hb : roundUp rm neg (m / 2 ^ sh) (m % 2 ^ sh) sh = true
    · exact .inl ⟨hup.1 hb, if_pos hb⟩
    · exact .inr ⟨fun h => hb (hup.2 h), if_neg hb⟩
  · rw [decide_eq_true_eq, ne_eq, ne_eq, left_eq_add, div_eq_zero_iff, or_iff_left hp.ne', Nat.cast_eq_zero]

/-- `roundAt` rounds m·2^e, counted in units of 2^q, to a whole number, and says whether that is another number. -/
theorem roundAt_rounds (rm : RoundMode) (neg : Bool) (m : Nat) (e q : Int) :
    ∃ n, RoundsOn (fun k => (k : ℝ)) rm neg (m * (2 : ℝ) ^ (e - q)) n (roundAt rm neg m e q).1 ∧
      ((roundAt rm neg m e q).2 = true ↔ ((roundAt rm neg m e q).1 : ℝ) ≠ m * (2 : ℝ) ^ (e - q)) := by
  obtain ⟨n, hr, hx⟩ := (le_or_gt q e).elim (roundAt_of_le rm neg m) (roundAt_of_lt rm neg m)
  exact ⟨n, hr, hx.trans (not_congr hr.eq_iff.symm)⟩

end Sys2Proof.Machine
end

section
/-! SUPPORT. From the magnitudes of a format to the words of the statements: a pattern rounded down, up and to nearest, and what
rounding does at the top of the format. -/

namespace Sys2Proof.Machine

open Sys2Proof.Claims

variable {f : Fmt} {X : ℝ} {C : Nat}

/-! ### A correctly rounded magnitude is a correctly rounded number -/

@[simp] theorem signUnit_false : signUnit false = 1 := rfl

@[simp] theorem signUnit_true : signUnit true = -1 := rfl

theorem abs_signUnit_mul (neg : Bool) (x : ℝ) : |signUnit neg * x| = |x| := by cases neg <;> simp

theorem signUnit_mul_lt_zero (neg : Bool) (hX : 0 < X) : signUnit neg * X < 0 ↔ neg = true := by
  cases neg
  · simpa using hX.le
  · simpa using hX

theorem signUnit_mul_right_inj (neg : Bool) {x y : ℝ} : signUnit neg * x = signUnit neg * y ↔ x = y := by
  cases neg <;> simp

/-- Pattern C has the largest magnitude of the format that is at most X. -/
def MagDown (f : Fmt) (X : ℝ) (C : Nat) : Prop :=
  C < f.infBits ∧ f.mag C ≤ X ∧ ∀ c < f.infBits, f.mag c ≤ X → f.mag c ≤ f.mag C

/-- Pattern C has the smallest magnitude of the format that is at least X, or is infinity if there is none. -/
def MagUp (f : Fmt) (X : ℝ) (C : Nat) : Prop :=
  (C < f.infBits ∧ X ≤ f.mag C ∧ ∀ c < f.infBits, X ≤ f.mag c → f.mag C ≤ f.mag c) ∨
  (C = f.infBits ∧ ∀ c < f.infBits, f.mag c < X)

/-- A magnitude with a sign that is at least a positive number has the sign plus. -/
theorem Fmt.sign_eq_false_of_le (hX : 0 < X) {neg : Bool} {a : Nat} (h : X ≤ signUnit neg * f.mag a) : neg = false := by
  cases neg with
  | false => rfl
  | true =>
    have := f.mag_nonneg a
    rw [signUnit_true] at h
    linarith

theorem signUnit_mul_mag_le (neg : Bool) (a : Nat) : signUnit neg * f.mag a ≤ f.mag a := by
  have := f.mag_nonneg a
  cases neg
  · simp
  · rw [signUnit_true]
    linarith

variable (hf : f.Regular)
include hf

theorem roundedDown_pos (h : MagDown f X C) : RoundedDown f X (f.withSign false C) := by
  obtain ⟨hC, hle, hmax⟩ := h
  refine .inl ⟨_, Fmt.valueOf_withSign hf false hC, by simpa using hle, fun c w hw hwX => ?_⟩
  obtain ⟨neg, a, ha, rfl⟩ := Fmt.exists_of_valueOf hf hw
  cases neg with
  | false => simpa using hmax a ha (by simpa using hwX)
  | true => simpa using (neg_nonpos.2 (f.mag_nonneg a)).trans (f.mag_nonneg C)

theorem roundedUp_neg (h : MagDown f X C) : RoundedUp f (-X) (f.withSign true C) := by
  obtain ⟨hC, hle, hmax⟩ := h
  refine .inl ⟨_, Fmt.valueOf_withSign hf true hC, by simpa using hle, fun c w hw hwX => ?_⟩
  obtain ⟨neg, a, ha, rfl⟩ := Fmt.exists_of_valueOf hf hw
  cases neg with
  | false => simpa using (neg_nonpos.2 (f.mag_nonneg C)).trans (f.mag_nonneg a)
  | true => simpa using hmax a ha (by simpa using hwX)

theorem roundedUp_pos (hX : 0 < X) (h : MagUp f X C) : RoundedUp f X (f.withSign false C) := by
  obtain ⟨hC, hle, hmin⟩ | ⟨rfl, hlt⟩ := h
  · refine .inl ⟨_, Fmt.valueOf_withSign hf false hC, by simpa using hle, fun c w hw hwX => ?_⟩
    obtain ⟨neg, a, ha, rfl⟩ := Fmt.exists_of_valueOf hf hw
    obtain rfl := Fmt.sign_eq_false_of_le hX hwX
    simpa using hmin a ha (by simpa using hwX)
  · refine .inr ⟨rfl, fun c w hw => ?_⟩
    obtain ⟨neg, a, ha, rfl⟩ := Fmt.exists_of_valueOf hf hw
    exact (signUnit_mul_mag_le neg a).trans_lt (hlt a ha)

theorem roundedDown_neg (hX : 0 < X) (h : MagUp f X C) : RoundedDown f (-X) (f.withSign true C) := by
  have flip (neg : Bool) (a : Nat) : -(signUnit neg * f.mag a) = signUnit (!neg) * f.mag a := by cases neg <;> simp
  obtain ⟨hC, hle, hmin⟩ | ⟨rfl, hlt⟩ := h
  · refine .inl ⟨_, Fmt.valueOf_withSign hf true hC, by simpa using hle, fun c w hw hwX => ?_⟩
    obtain ⟨neg, a, ha, rfl⟩ := Fmt.exists_of_valueOf hf hw
    have hge : X ≤ signUnit (!neg) * f.mag a := by
      rw [← flip]
      linarith
    obtain rfl : neg = true := by simpa using Fmt.sign_eq_false_of_le hX hge
    simpa using hmin a ha (by simpa using hge)
  · refine .inr ⟨rfl, fun c w hw => ?_⟩
    obtain ⟨neg, a, ha, rfl⟩ := Fmt.exists_of_valueOf hf hw
    have := (signUnit_mul_mag_le (!neg) a).trans_lt (hlt a ha)
    rw [← flip] at this
    linarith

/-- A magnitude nearest to X, with ties as asked, is a number nearest to X with its sign. -/
theorem roundedNearest_of_mag {neg : Bool} {tie : ℝ → ℝ → Prop} (hX : 0 < X) (hb : X < overflowBound f) (hC : C < f.infBits)
    (h : ∀ c < f.infBits, |f.mag C - X| ≤ |f.mag c - X| ∧
      (|f.mag C - X| = |f.mag c - X| → f.mag c ≠ f.mag C → tie (signUnit neg * f.mag C) (signUnit neg * f.mag c))) :
    RoundedNearest f (signUnit neg * X) (f.withSign neg C) tie := by
  have hdist (a : Nat) : |signUnit neg * f.mag a - signUnit neg * X| = |f.mag a - X| := by
    rw [← mul_sub, abs_signUnit_mul]
  refine .inl ⟨by rwa [abs_signUnit_mul, abs_of_pos hX], _, Fmt.valueOf_withSign hf neg hC, fun c w hw => ?_⟩
  obtain ⟨sg, a, ha, rfl⟩ := Fmt.exists_of_valueOf hf hw
  rw [hdist]
  by_cases hs : sg = neg
  · subst hs
    rw [hdist]
    exact ⟨(h a ha).1, fun he hne => (h a ha).2 he fun heq => hne (by rw [heq])⟩
  · have hopp : |signUnit sg * f.mag a - signUnit neg * X| = f.mag a + X := by
      have hnn := f.mag_nonneg a
      cases sg <;> cases neg
      · exact absurd rfl hs
      · rw [signUnit_false, signUnit_true, abs_of_pos] <;> linarith
      · rw [signUnit_false, signUnit_true, abs_of_neg] <;> linarith
      · exact absurd rfl hs
    have h0 := h 0 (by omega)
    have hz : |f.mag 0 - X| = X := by rw [f.mag_zero, zero_sub, abs_neg, abs_of_pos hX]
    rw [hopp]
    rw [hz] at h0
    refine ⟨h0.1.trans (le_add_of_nonneg_left (f.mag_nonneg a)), fun he hne => ?_⟩
    have ha0 : f.mag a = 0 := le_antisymm (by linarith [h0.1]) (f.mag_nonneg a)
    have ht := h0.2 (by linarith) fun hc => hne (by rw [ha0, ← hc, f.mag_zero, mul_zero, mul_zero])
    rwa [f.mag_zero, mul_zero, ← mul_zero (signUnit sg), ← ha0] at ht

end Sys2Proof.Machine
end

section
/-! SUPPORT. Rounding on the scale of a format's magnitudes is correct rounding, in every mode. -/

namespace Sys2Proof.Machine

open Sys2Proof.Claims

variable {f : Fmt} {rm : RoundMode} {neg : Bool} {X : ℝ} {n b : Nat}

/-- The mode never rounds a magnitude of this sign up. -/
def TowardZero (rm : RoundMode) (neg : Bool) : Prop := rm = .rtz ∨ (rm = .rdn ∧ neg = false) ∨ (rm = .rup ∧ neg = true)

/-- The mode rounds every inexact magnitude of this sign up. -/
def FromZero (rm : RoundMode) (neg : Bool) : Prop := (rm = .rdn ∧ neg = true) ∨ (rm = .rup ∧ neg = false)

/-- The mode is to nearest. -/
def ToNearest (rm : RoundMode) : Prop := rm = .rne ∨ rm = .rmm

theorem towardZero_or_fromZero_or_toNearest (rm : RoundMode) (neg : Bool) :
    TowardZero rm neg ∨ FromZero rm neg ∨ ToNearest rm := by
  cases rm <;> cases neg <;> simp [TowardZero, FromZero, ToNearest]

theorem TowardZero.not_roundsAway (h : TowardZero rm neg) {a c x : ℝ} : ¬RoundsAway rm neg n a c x := by
  obtain rfl | ⟨rfl, rfl⟩ | ⟨rfl, rfl⟩ := h <;> simp [RoundsAway]

theorem FromZero.roundsAway_iff (h : FromZero rm neg) {a c x : ℝ} : RoundsAway rm neg n a c x ↔ x ≠ a := by
  obtain ⟨rfl, rfl⟩ | ⟨rfl, rfl⟩ := h <;> simp [RoundsAway]

/-- To nearest, a number is taken to the next only from the middle on, and left only up to the middle. -/
theorem ToNearest.middle (h : ToNearest rm) {a c x : ℝ} :
    (RoundsAway rm neg n a c x → a + c ≤ 2 * x) ∧ (¬RoundsAway rm neg n a c x → 2 * x ≤ a + c) := by
  obtain rfl | rfl := h <;> simp only [RoundsAway]
  · exact ⟨fun h => h.elim le_of_lt fun h => h.1.le, fun h => not_lt.1 fun hl => h (.inl hl)⟩
  · exact ⟨id, fun h => (not_le.1 h).le⟩

namespace RoundsOn

theorem eq_of_towardZero (h : RoundsOn f.mag rm neg X n b) (hd : TowardZero rm neg) : b = n := by
  rcases h.value with ⟨ha, -⟩ | ⟨-, hb⟩
  · exact absurd ha hd.not_roundsAway
  · exact hb

/-- Patterns that are not above the number X lies after have at most the magnitude X, and the others more. -/
theorem mag_le_iff (h : RoundsOn f.mag rm neg X n b) {c : Nat} : f.mag c ≤ X ↔ c ≤ n := by
  constructor
  · intro hc
    exact Nat.lt_succ_iff.1 (f.mag_strictMono.lt_iff_lt.1 (hc.trans_lt h.lt))
  · intro hc
    exact (f.mag_strictMono.monotone hc).trans h.le

/-- Rounding from zero, X is above every pattern below the result and at most the result. -/
theorem mag_lt_of_fromZero (h : RoundsOn f.mag rm neg X n b) (hd : FromZero rm neg) {c : Nat} (hc : c < b) : f.mag c < X := by
  rcases h.value with ⟨ha, rfl⟩ | ⟨-, rfl⟩
  · exact ((f.mag_strictMono.monotone (Nat.lt_succ_iff.1 hc)).trans h.le).lt_of_ne fun he => by
      have hn := h.mag_le_iff.1 he.le
      have hle : f.mag c ≤ f.mag n := f.mag_strictMono.monotone hn
      exact (hd.roundsAway_iff.1 ha) (le_antisymm (he ▸ hle) h.le)
  · exact (f.mag_strictMono hc).trans_le h.le

theorem le_mag_of_fromZero (h : RoundsOn f.mag rm neg X n b) (hd : FromZero rm neg) : X ≤ f.mag b := by
  rcases h.value with ⟨-, rfl⟩ | ⟨ha, rfl⟩
  · exact h.lt.le
  · exact (not_not.1 (mt hd.roundsAway_iff.2 ha)).le

theorem magDown (hf : f.Regular) (h : RoundsOn f.mag rm neg X n b) (hd : TowardZero rm neg) :
    MagDown f X (if f.infBits ≤ b then f.infBits - 1 else b) := by
  have hpos := hf.infBits_pos
  obtain rfl := h.eq_of_towardZero hd
  split_ifs with hi
  · exact ⟨by omega, h.mag_le_iff.2 (by omega), fun c hc _ => f.mag_strictMono.monotone (by omega)⟩
  · exact ⟨by omega, h.le, fun c _ hX => f.mag_strictMono.monotone (h.mag_le_iff.1 hX)⟩

theorem magUp (h : RoundsOn f.mag rm neg X n b) (hd : FromZero rm neg) :
    MagUp f X (if f.infBits ≤ b then f.infBits else b) := by
  split_ifs with hi
  · exact .inr ⟨rfl, fun c hc => h.mag_lt_of_fromZero hd (by omega)⟩
  · exact .inl ⟨by omega, h.le_mag_of_fromZero hd, fun c _ hX => f.mag_strictMono.monotone
      (not_lt.1 fun hc => absurd (h.mag_lt_of_fromZero hd hc) (not_lt.2 hX))⟩

/-- To nearest, no pattern is nearer to X than the result, and another one is as near only if X is in the middle. -/
theorem nearest (h : RoundsOn f.mag rm neg X n b) (hd : ToNearest rm) (c : Nat) :
    |f.mag b - X| ≤ |f.mag c - X| ∧
    (|f.mag b - X| = |f.mag c - X| → f.mag c ≠ f.mag b → f.mag n + f.mag (n + 1) = 2 * X) := by
  have hle := h.le
  have hlt := h.lt
  have hc : f.mag c ≤ f.mag n ∨ f.mag (n + 1) ≤ f.mag c :=
    (Nat.lt_or_ge n c).symm.imp (f.mag_strictMono.monotone ·) (f.mag_strictMono.monotone ·)
  rcases h.value with ⟨ha, rfl⟩ | ⟨ha, rfl⟩
  · have hm := hd.middle.1 ha
    rw [abs_of_pos (by linarith)]
    rcases hc with hc | hc
    · rw [abs_of_nonpos (by linarith)]
      exact ⟨by linarith, fun he _ => by linarith⟩
    · rw [abs_of_pos (by linarith)]
      exact ⟨by linarith, fun he hne => absurd (by linarith) hne⟩
  · have hm := hd.middle.2 ha
    rw [abs_of_nonpos (by linarith)]
    rcases hc with hc | hc
    · rw [abs_of_nonpos (by linarith)]
      exact ⟨by linarith, fun he hne => absurd (by linarith) hne⟩
    · rw [abs_of_pos (by linarith)]
      exact ⟨by linarith, fun he _ => by linarith⟩

/-- A tie goes to the even pattern. -/
theorem even_of_tie (h : RoundsOn f.mag .rne neg X n b) (ht : f.mag n + f.mag (n + 1) = 2 * X) : b % 2 = 0 := by
  rcases h.value with ⟨hl | ⟨-, ho⟩, rfl⟩ | ⟨ha, rfl⟩
  · exact absurd ht hl.ne
  · omega
  · have : ¬b % 2 = 1 := fun ho => ha (.inr ⟨ht, ho⟩)
    omega

/-- A tie goes to the larger pattern. -/
theorem eq_succ_of_tie (h : RoundsOn f.mag .rmm neg X n b) (ht : f.mag n + f.mag (n + 1) = 2 * X) : b = n + 1 := by
  rcases h.value with ⟨-, hb⟩ | ⟨ha, -⟩
  · exact hb
  · exact absurd ht.le ha

/-- To nearest with ties away, a pattern as near as the result is not larger. -/
theorem mag_le_of_tie (h : RoundsOn f.mag .rmm neg X n b) {c : Nat} (he : |f.mag b - X| = |f.mag c - X|)
    (hne : f.mag c ≠ f.mag b) : f.mag c ≤ f.mag b := by
  obtain rfl := h.eq_succ_of_tie ((h.nearest (.inr rfl) c).2 he hne)
  rw [abs_of_pos (sub_pos.2 h.lt)] at he
  linarith [le_abs_self (f.mag c - X)]

end RoundsOn

/-! ### The patterns of rounded results -/

theorem Fmt.Regular.withSign_mod_two (hf : f.Regular) (neg : Bool) (b : Nat) : f.withSign neg b % 2 = b % 2 := by
  have h2 : f.signBit % 2 = 0 := by
    obtain ⟨k, hk⟩ := Nat.exists_eq_add_of_le' (show 1 ≤ f.expBits + f.fracBits from le_add_left hf.one_le_frac)
    rw [Fmt.signBit, hk, pow_succ]
    omega
  unfold Fmt.withSign
  split_ifs
  · omega
  · rfl

/-- The magnitude pattern of a result: an overflow gives what the mode says. -/
def Fmt.finish (f : Fmt) (rm : RoundMode) (neg : Bool) (b : Nat) : Nat :=
  if f.infBits ≤ b then f.overflowBits rm neg else b

theorem overflowBits_of_towardZero (h : TowardZero rm neg) : f.overflowBits rm neg = f.infBits - 1 := by
  obtain rfl | ⟨rfl, rfl⟩ | ⟨rfl, rfl⟩ := h <;> rfl

theorem overflowBits_of_fromZero (h : FromZero rm neg) : f.overflowBits rm neg = f.infBits := by
  obtain ⟨rfl, rfl⟩ | ⟨rfl, rfl⟩ := h <;> rfl

theorem overflowBits_of_toNearest (h : ToNearest rm) : f.overflowBits rm neg = f.infBits := by
  obtain rfl | rfl := h <;> rfl

theorem Fmt.finish_le_infBits (f : Fmt) (rm : RoundMode) (neg : Bool) (b : Nat) : f.finish rm neg b ≤ f.infBits := by
  unfold Fmt.finish
  split_ifs with h
  · cases rm <;> cases neg <;> simp [Fmt.overflowBits]
  · omega

/-- A magnitude rounded on the scale of the format, with its sign, is the number correctly rounded, if the result overflows
exactly where the statement has it. -/
theorem rounds_of_roundsOn (hf : f.Regular) (hX : 0 < X) (h : RoundsOn f.mag rm neg X n b)
    (hov : f.infBits ≤ b ↔ ReachesPower f rm (signUnit neg * X) ((2 : ℤ) ^ (f.expBits - 1))) :
    Rounds f rm (signUnit neg * X) (f.withSign neg (f.finish rm neg b)) := by
  rcases towardZero_or_fromZero_or_toNearest rm neg with hd | hd | hd
  · have hm := h.magDown hf hd
    rw [Fmt.finish, overflowBits_of_towardZero hd]
    obtain rfl | ⟨rfl, rfl⟩ | ⟨rfl, rfl⟩ := hd
    · cases neg
      · simpa [Rounds, hX.le] using roundedDown_pos hf hm
      · simpa [Rounds, hX.not_ge] using roundedUp_neg hf hm
    · simpa [Rounds] using roundedDown_pos hf hm
    · simpa [Rounds] using roundedUp_neg hf hm
  · have hm := h.magUp hd
    rw [Fmt.finish, overflowBits_of_fromZero hd]
    obtain ⟨rfl, rfl⟩ | ⟨rfl, rfl⟩ := hd
    · simpa [Rounds] using roundedDown_neg hf hX hm
    · simpa [Rounds] using roundedUp_pos hf hX hm
  · have hbound : f.infBits ≤ b ↔ overflowBound f ≤ X := by
      rw [hov]
      obtain rfl | rfl := hd <;> simp only [ReachesPower, abs_signUnit_mul, abs_of_pos hX, overflowBound]
    rw [Fmt.finish, overflowBits_of_toNearest hd]
    split_ifs with hi
    · have hinf (tie : ℝ → ℝ → Prop) :
          RoundedNearest f (signUnit neg * X) (f.withSign neg f.infBits) tie := by
        refine .inr ⟨by rw [abs_signUnit_mul, abs_of_pos hX]; exact hbound.1 hi, ?_⟩
        simp only [signUnit_mul_lt_zero neg hX, Bool.decide_eq_true]
      obtain rfl | rfl := hd <;> exact hinf _
    · have hlt := not_le.1 (mt hbound.2 hi)
      obtain rfl | rfl := hd
      · refine roundedNearest_of_mag hf hX hlt (not_le.1 hi) fun c _ => ?_
        obtain ⟨hn, ht⟩ := h.nearest (.inl rfl) c
        exact ⟨hn, fun he hne => (hf.withSign_mod_two neg b).trans (h.even_of_tie (ht he hne))⟩
      · refine roundedNearest_of_mag hf hX hlt (not_le.1 hi) fun c _ => ⟨(h.nearest (.inr rfl) c).1, fun he hne => ?_⟩
        rw [abs_signUnit_mul, abs_signUnit_mul, abs_of_nonneg (f.mag_nonneg c), abs_of_nonneg (f.mag_nonneg b)]
        exact h.mag_le_of_tie he hne

/-- The result has the value X exactly when nothing was lost. -/
theorem valueOf_finish_iff (hf : f.Regular) (h : RoundsOn f.mag rm neg X n b) :
    valueOf f (f.withSign neg (f.finish rm neg b)) = some (signUnit neg * X) ↔ b < f.infBits ∧ f.mag b = X := by
  unfold Fmt.finish
  split_ifs with hi
  · refine ⟨fun hv => ?_, fun hb => absurd hb.1 (by omega)⟩
    have hpos := hf.infBits_pos
    have hinf (hv : valueOf f (f.withSign neg f.infBits) = some (signUnit neg * X)) : False := by
      rw [Fmt.valueOf_infinity hf] at hv
      cases hv
    rcases towardZero_or_fromZero_or_toNearest rm neg with hd | hd | hd
    · rw [overflowBits_of_towardZero hd, Fmt.valueOf_withSign hf neg (by omega), Option.some_inj, signUnit_mul_right_inj] at hv
      have hb := h.eq_of_towardZero hd
      have hlt : f.mag (f.infBits - 1) < f.mag n := f.mag_strictMono (by omega)
      linarith [h.le]
    · rw [overflowBits_of_fromZero hd] at hv
      exact (hinf hv).elim
    · rw [overflowBits_of_toNearest hd] at hv
      exact (hinf hv).elim
  · rw [Fmt.valueOf_withSign hf neg (by omega), Option.some_inj, signUnit_mul_right_inj]
    exact ⟨fun he => ⟨by omega, he⟩, fun he => he.2⟩

end Sys2Proof.Machine
end

section
/-! SUPPORT. `Fmt.round` is correct rounding: where its result overflows and where it is tiny, its value and its flags. -/

namespace Sys2Proof.Machine

open Sys2Proof.Claims

variable {f : Fmt} {rm : RoundMode} {neg : Bool} {X : ℝ} {k q : ℤ}

/-! ### Reaching a power of two, with the exponent unbounded -/

/-- The bound that `ReachesPower` asks a magnitude to pass, by the direction of the mode. -/
theorem reachesPower_iff_of_towardZero (hX : 0 < X) (h : TowardZero rm neg) :
    ReachesPower f rm (signUnit neg * X) k ↔ (2 : ℝ) ^ k ≤ X := by
  obtain rfl | ⟨rfl, rfl⟩ | ⟨rfl, rfl⟩ := h
  · simp only [ReachesPower, abs_signUnit_mul, abs_of_pos hX]
  · simp [ReachesPower, abs_of_pos hX, hX.not_gt]
  · simp [ReachesPower, abs_of_pos hX, hX]

theorem reachesPower_iff_of_fromZero (hX : 0 < X) (h : FromZero rm neg) :
    ReachesPower f rm (signUnit neg * X) k ↔ (2 : ℝ) ^ k - (2 : ℝ) ^ (k - 1 - f.fracBits) < X := by
  obtain ⟨rfl, rfl⟩ | ⟨rfl, rfl⟩ := h <;> simp [ReachesPower, abs_of_pos hX, hX, hX.not_gt]

theorem reachesPower_iff_of_toNearest (hX : 0 < X) (h : ToNearest rm) :
    ReachesPower f rm (signUnit neg * X) k ↔ (2 : ℝ) ^ k - (2 : ℝ) ^ (k - 2 - f.fracBits) ≤ X := by
  obtain rfl | rfl := h <;> simp only [ReachesPower, abs_signUnit_mul, abs_of_pos hX]

/-- A magnitude that is 2^k or more reaches it in every mode. -/
theorem reachesPower_of_le (hX : 0 < X) (h : (2 : ℝ) ^ k ≤ X) : ReachesPower f rm (signUnit neg * X) k := by
  have h1 : (0 : ℝ) < 2 ^ (k - 1 - f.fracBits) := zpow_pos two_pos _
  have h2 : (0 : ℝ) < 2 ^ (k - 2 - f.fracBits) := zpow_pos two_pos _
  rcases towardZero_or_fromZero_or_toNearest rm neg with hd | hd | hd
  · exact (reachesPower_iff_of_towardZero hX hd).2 h
  · exact (reachesPower_iff_of_fromZero hX hd).2 (by linarith)
  · exact (reachesPower_iff_of_toNearest hX hd).2 (by linarith)

/-- A magnitude below 2^(k - 1) does not reach 2^k in any mode. -/
theorem not_reachesPower_of_lt (hX : 0 < X) (h : X < (2 : ℝ) ^ (k - 1)) :
    ¬ReachesPower f rm (signUnit neg * X) k := by
  have hk : (2 : ℝ) ^ k = 2 * 2 ^ (k - 1) := by rw [zpow_sub_one₀ two_ne_zero]; ring
  have h0 : (0 : ℝ) < 2 ^ (k - 1) := zpow_pos two_pos _
  have h1 : (2 : ℝ) ^ (k - 1 - f.fracBits) ≤ 2 ^ (k - 1) := zpow_le_zpow_right₀ one_le_two (by omega)
  have h2 : (2 : ℝ) ^ (k - 2 - f.fracBits) ≤ 2 ^ (k - 1) := zpow_le_zpow_right₀ one_le_two (by omega)
  rcases towardZero_or_fromZero_or_toNearest rm neg with hd | hd | hd
  · rw [reachesPower_iff_of_towardZero hX hd]
    linarith
  · rw [reachesPower_iff_of_fromZero hX hd]
    linarith
  · rw [reachesPower_iff_of_toNearest hX hd]
    linarith

section Unit

/-! A number y below an even whole number N, rounded to a whole number r. -/

variable {y : ℝ} {n r N : Nat} (h : RoundsOn (fun j => (j : ℝ)) rm neg y n r) (hy : y < N)
include h hy

/-- The result is N only from the whole number before it, away from which the mode has to round. -/
theorem result_eq_iff : r = N ↔ n + 1 = N ∧ RoundsAway rm neg n n (n + 1 : Nat) y := by
  have hn : n < N := by exact_mod_cast h.le.trans_lt hy
  rcases h.value with ⟨ha, rfl⟩ | ⟨ha, rfl⟩
  · exact ⟨fun he => ⟨he, ha⟩, fun he => he.1⟩
  · exact ⟨fun he => by omega, fun he => absurd he.2 ha⟩

/-- Above N - 1, the whole number before y is N - 1. -/
theorem succ_eq_of_lt (hl : (N : ℝ) - 1 < y) : n + 1 = N := by
  have hlt := h.lt
  have h1 : N < n + 2 := by
    have : (N : ℝ) < (n + 2 : Nat) := by push_cast at hlt ⊢; linarith
    exact_mod_cast this
  have h2 : n < N := by exact_mod_cast h.le.trans_lt hy
  omega

theorem result_ne_of_towardZero (hd : TowardZero rm neg) : r ≠ N := fun he =>
  hd.not_roundsAway ((result_eq_iff h hy).1 he).2

theorem result_eq_iff_of_fromZero (hd : FromZero rm neg) : r = N ↔ (N : ℝ) - 1 < y := by
  rw [result_eq_iff h hy, hd.roundsAway_iff]
  constructor
  · rintro ⟨rfl, hne⟩
    have := h.le.lt_of_ne' hne
    push_cast
    linarith
  · intro hl
    obtain rfl := succ_eq_of_lt h hy hl
    push_cast at hl
    exact ⟨rfl, fun he => by linarith⟩

theorem result_eq_iff_of_toNearest (hN : N % 2 = 0) (hd : ToNearest rm) : r = N ↔ (N : ℝ) - 1 / 2 ≤ y := by
  rw [result_eq_iff h hy]
  constructor
  · rintro ⟨rfl, ha⟩
    have := hd.middle.1 ha
    push_cast at this ⊢
    linarith
  · intro hl
    obtain rfl := succ_eq_of_lt h hy (by linarith)
    push_cast at hl
    refine ⟨rfl, ?_⟩
    obtain rfl | rfl := hd <;> simp only [RoundsAway]
    · refine (le_iff_lt_or_eq.1 ?_).imp_right fun he => ⟨he, by omega⟩
      push_cast
      linarith
    · push_cast
      linarith

end Unit

/-- A magnitude in the binade below 2^k reaches 2^k exactly when it is rounded to 2^(fracBits + 1) units. -/
theorem reachesPower_iff_result {y : ℝ} {n r : Nat} (h : RoundsOn (fun j => (j : ℝ)) rm neg y n r) (hy0 : 0 < y)
    (hy : y < (2 ^ (f.fracBits + 1) : Nat)) (hk : k = q + f.fracBits + 1) :
    ReachesPower f rm (signUnit neg * (y * 2 ^ q)) k ↔ r = 2 ^ (f.fracBits + 1) := by
  have hu : (0 : ℝ) < 2 ^ q := zpow_pos two_pos _
  have hX : 0 < y * 2 ^ q := mul_pos hy0 hu
  have hpow : (2 : ℝ) ^ k = (2 ^ (f.fracBits + 1) : Nat) * 2 ^ q := by
    rw [hk, add_assoc, zpow_add₀ two_ne_zero, mul_comm]
    push_cast
    rfl
  have h1 : (2 : ℝ) ^ (k - 1 - f.fracBits) = 1 * 2 ^ q := by rw [one_mul]; congr 1; omega
  have h2 : (2 : ℝ) ^ (k - 2 - f.fracBits) = 1 / 2 * 2 ^ q := by
    rw [show k - 2 - f.fracBits = q - 1 by omega, zpow_sub_one₀ two_ne_zero]
    ring
  have hN : 2 ^ (f.fracBits + 1) % 2 = 0 := by rw [pow_succ]; omega
  rcases towardZero_or_fromZero_or_toNearest rm neg with hd | hd | hd
  · rw [reachesPower_iff_of_towardZero hX hd, hpow, mul_le_mul_iff_left₀ hu]
    exact iff_of_false (not_le.2 hy) (result_ne_of_towardZero h hy hd)
  · rw [reachesPower_iff_of_fromZero hX hd, hpow, h1, ← sub_mul, mul_lt_mul_iff_left₀ hu, result_eq_iff_of_fromZero h hy hd]
  · rw [reachesPower_iff_of_toNearest hX hd, hpow, h2, ← sub_mul, mul_le_mul_iff_left₀ hu,
      result_eq_iff_of_toNearest h hy hN hd]

end Sys2Proof.Machine
end

section
/-! SUPPORT. `Fmt.round` in parts: the place it rounds at, the pattern it gives, and its flags. -/

namespace Sys2Proof.Machine

open Sys2Proof.Claims

variable {f : Fmt} {rm : RoundMode} {neg : Bool} {m : Nat} {e : Int}

/-! ### The parts of `Fmt.round` -/

/-- The weight of the last significand bit of m·2^e, with the exponent unbounded. -/
def Fmt.freePlace (f : Fmt) (m : Nat) (e : Int) : Int := e + (Nat.log2 m : Int) - (f.fracBits : Int)

/-- The weight of the last bit that the format keeps. -/
def Fmt.place (f : Fmt) (m : Nat) (e : Int) : Int := if f.qmin ≤ f.freePlace m e then f.freePlace m e else f.qmin

/-- The magnitude pattern of the rounded number, as if there were no largest one. -/
def Fmt.roundBits (f : Fmt) (rm : RoundMode) (neg : Bool) (m : Nat) (e : Int) : Nat :=
  (f.place m e - f.qmin).toNat * 2 ^ f.fracBits + (roundAt rm neg m e (f.place m e)).1

/-- The number, rounded with the exponent unbounded, is below the smallest normal number. -/
def Fmt.tiny (f : Fmt) (rm : RoundMode) (neg : Bool) (m : Nat) (e : Int) : Bool :=
  decide (f.freePlace m e < f.qmin) &&
    !(decide (f.freePlace m e = f.qmin - 1) && decide ((roundAt rm neg m e (f.freePlace m e)).1 = 2 ^ (f.fracBits + 1)))

/-- The flags of a rounding that overflows or not, is inexact or not, and tiny or not. -/
def roundFlags (ovf inexact tiny : Bool) : FlagBits :=
  if ovf then flagOF ||| flagNX else if inexact then (if tiny then flagUF ||| flagNX else flagNX) else 0

theorem Fmt.round_eq (hm : 0 < m) :
    f.round rm neg m e = (f.withSign neg (f.finish rm neg (f.roundBits rm neg m e)),
      roundFlags (decide (f.infBits ≤ f.roundBits rm neg m e)) (roundAt rm neg m e (f.place m e)).2 (f.tiny rm neg m e)) := by
  unfold Fmt.round
  rw [if_neg hm.ne']
  by_cases ho : f.infBits ≤ f.roundBits rm neg m e
  · rw [Fmt.finish, if_pos ho, decide_eq_true ho]
    exact if_pos ho
  · rw [Fmt.finish, if_neg ho, decide_eq_false ho]
    exact if_neg ho

/-- Each flag, by what it stands for. -/
theorem roundFlags_spec (ovf inexact tiny : Bool) :
    (roundFlags ovf inexact tiny &&& flagNX ≠ 0 ↔ ovf = true ∨ inexact = true) ∧
    (roundFlags ovf inexact tiny &&& flagOF ≠ 0 ↔ ovf = true) ∧
    (roundFlags ovf inexact tiny &&& flagUF ≠ 0 ↔ ovf = false ∧ inexact = true ∧ tiny = true) ∧
    roundFlags ovf inexact tiny &&& (flagNV ||| flagDZ) = 0 := by
  revert ovf inexact tiny
  decide

/-! ### The number in units of a place -/

/-- m is in the binade of its highest bit. -/
theorem binade (hm : 0 < m) (q : Int) :
    (2 : ℝ) ^ (e + (Nat.log2 m : Int) - q) ≤ m * (2 : ℝ) ^ (e - q) ∧
    m * (2 : ℝ) ^ (e - q) < (2 : ℝ) ^ (e + (Nat.log2 m : Int) - q + 1) := by
  have hu : (0 : ℝ) < 2 ^ (e - q) := zpow_pos two_pos _
  have h1 : ((2 ^ m.log2 : Nat) : ℝ) ≤ m := by exact_mod_cast Nat.log2_self_le hm.ne'
  have h2 : (m : ℝ) < ((2 ^ (m.log2 + 1) : Nat) : ℝ) := by exact_mod_cast Nat.lt_log2_self
  have split (j : Nat) : (2 : ℝ) ^ ((j : Int) + (e - q)) = ((2 ^ j : Nat) : ℝ) * 2 ^ (e - q) := by
    rw [zpow_add₀ two_ne_zero, zpow_natCast]
    push_cast
    rfl
  rw [show e + (m.log2 : Int) - q + 1 = ((m.log2 + 1 : Nat) : Int) + (e - q) by push_cast; ring,
    show e + (m.log2 : Int) - q = (m.log2 : Int) + (e - q) by ring, split, split]
  exact ⟨mul_le_mul_of_nonneg_right h1 hu.le, mul_lt_mul_of_pos_right h2 hu⟩

/-- Counted in units of its free place, the number has fracBits + 1 bits. -/
theorem Fmt.freePlace_units (f : Fmt) (hm : 0 < m) :
    ((2 ^ f.fracBits : Nat) : ℝ) ≤ m * (2 : ℝ) ^ (e - f.freePlace m e) ∧
    m * (2 : ℝ) ^ (e - f.freePlace m e) < (2 ^ (f.fracBits + 1) : Nat) := by
  have h := binade (e := e) hm (f.freePlace m e)
  rw [show e + (m.log2 : Int) - f.freePlace m e = (f.fracBits : Int) by unfold Fmt.freePlace; ring] at h
  exact_mod_cast h

theorem Fmt.freePlace_le_place (f : Fmt) (m : Nat) (e : Int) : f.freePlace m e ≤ f.place m e ∧ f.qmin ≤ f.place m e := by
  unfold Fmt.place
  split_ifs <;> omega

/-- Counted in units of its place, it has at most so many, and that many if the place is not the last of the format. -/
theorem Fmt.place_units (f : Fmt) (hm : 0 < m) :
    m * (2 : ℝ) ^ (e - f.place m e) < (2 ^ (f.fracBits + 1) : Nat) ∧
    (f.place m e = f.qmin ∨ ((2 ^ f.fracBits : Nat) : ℝ) ≤ m * (2 : ℝ) ^ (e - f.place m e)) := by
  obtain ⟨hlo, hhi⟩ := f.freePlace_units (e := e) hm
  refine ⟨lt_of_le_of_lt ?_ hhi, ?_⟩
  · have := (f.freePlace_le_place m e).1
    exact mul_le_mul_of_nonneg_left (zpow_le_zpow_right₀ one_le_two (by omega)) (Nat.cast_nonneg m)
  · by_cases hq : f.qmin ≤ f.freePlace m e
    · rw [Fmt.place, if_pos hq]
      exact .inr hlo
    · rw [Fmt.place, if_neg hq]
      exact .inl rfl

/-- A number in units of a place. -/
theorem units_mul (m : Nat) (e q : Int) : m * (2 : ℝ) ^ (e - q) * 2 ^ q = m * (2 : ℝ) ^ e := by
  rw [mul_assoc, ← zpow_add₀ two_ne_zero, sub_add_cancel]

/-- `Fmt.round` rounds on the scale of the format's magnitudes. -/
theorem Fmt.roundBits_rounds (f : Fmt) (hf : f.Regular) (rm : RoundMode) (neg : Bool) (hm : 0 < m) (e : Int) :
    ∃ n, RoundsOn f.mag rm neg (m * (2 : ℝ) ^ e) n (f.roundBits rm neg m e) ∧
      ((roundAt rm neg m e (f.place m e)).2 = true ↔ f.mag (f.roundBits rm neg m e) ≠ m * (2 : ℝ) ^ e) := by
  obtain ⟨n, hr, hx⟩ := roundAt_rounds rm neg m e (f.place m e)
  obtain ⟨hhi, hlo⟩ := f.place_units (e := e) hm
  obtain ⟨k, hk⟩ := Int.eq_ofNat_of_zero_le (sub_nonneg.2 (f.freePlace_le_place m e).2)
  have hplace : f.place m e = f.qmin + k := by omega
  have hu : (0 : ℝ) < 2 ^ (f.qmin + k) := zpow_pos two_pos _
  have hn : n < 2 ^ (f.fracBits + 1) := by exact_mod_cast hr.le.trans_lt hhi
  have hnk : k = 0 ∨ 2 ^ f.fracBits ≤ n := hlo.imp (fun h => by omega) fun h => by
    have : 2 ^ f.fracBits < n + 1 := by exact_mod_cast h.trans_lt hr.lt
    omega
  have hrn := hr.le_result
  have heven : k * 2 ^ f.fracBits % 2 = 0 := by
    obtain ⟨p, hp⟩ := Nat.exists_eq_add_of_le' hf.one_le_frac
    rw [hp, pow_succ, ← mul_assoc]
    omega
  have hbits : f.roundBits rm neg m e = k * 2 ^ f.fracBits + (roundAt rm neg m e (f.place m e)).1 := by
    rw [Fmt.roundBits, hk]
    rfl
  generalize roundAt rm neg m e (f.place m e) = r at *
  have hmag : f.mag (f.roundBits rm neg m e) = r.1 * (2 : ℝ) ^ f.place m e := by
    rw [hbits, hplace, f.mag_scaled (by omega) (by omega)]
  rw [← units_mul m e (f.place m e), hmag, hx]
  refine ⟨k * 2 ^ f.fracBits + n, ?_, ?_⟩
  · rw [hbits]
    refine hr.transfer (hplace ▸ hu) heven ?_ ?_
    · rw [hplace, f.mag_scaled hnk hn.le]
    · rw [hplace, f.mag_scaled (by omega) (by omega)]
  · rw [ne_eq, ne_eq, mul_left_inj' (hplace ▸ hu.ne')]

/-! ### Overflow and underflow -/

/-- A number, rounded with the exponent unbounded, reaches 2^k exactly if it is that large or is rounded up to it. -/
theorem reachesPower_iff (f : Fmt) (rm : RoundMode) (neg : Bool) (hm : 0 < m) (e k : Int) :
    ReachesPower f rm (signUnit neg * (m * (2 : ℝ) ^ e)) k ↔
      k ≤ f.freePlace m e + f.fracBits ∨
      (k = f.freePlace m e + f.fracBits + 1 ∧ (roundAt rm neg m e (f.freePlace m e)).1 = 2 ^ (f.fracBits + 1)) := by
  have hX : 0 < (m : ℝ) * 2 ^ e := mul_pos (by exact_mod_cast hm) (zpow_pos two_pos _)
  obtain ⟨h1, h2⟩ := binade (e := e) hm 0
  rw [sub_zero, sub_zero, show e + (m.log2 : Int) = f.freePlace m e + f.fracBits by unfold Fmt.freePlace; ring] at h1 h2
  rcases lt_trichotomy k (f.freePlace m e + f.fracBits + 1) with hk | hk | hk
  · exact iff_of_true (reachesPower_of_le hX ((zpow_le_zpow_right₀ one_le_two (by omega)).trans h1)) (.inl (by omega))
  · obtain ⟨n, hr, -⟩ := roundAt_rounds rm neg m e (f.freePlace m e)
    obtain ⟨hlo, hhi⟩ := f.freePlace_units (e := e) hm
    have hy : 0 < (m : ℝ) * 2 ^ (e - f.freePlace m e) := mul_pos (by exact_mod_cast hm) (zpow_pos two_pos _)
    rw [← units_mul m e (f.freePlace m e), reachesPower_iff_result hr hy hhi hk]
    exact ⟨fun h => .inr ⟨hk, h⟩, fun h => h.elim (fun h => by omega) fun h => h.2⟩
  · refine iff_of_false (not_reachesPower_of_lt hX (h2.trans_le (zpow_le_zpow_right₀ one_le_two (by omega)))) ?_
    omega

/-- 2^(expBits - 1), on which the bounds of the exponent rest. -/
theorem Fmt.Regular.exponents (hf : f.Regular) :
    ∃ w : Nat, 2 ≤ w ∧ (2 : ℤ) ^ (f.expBits - 1) = w ∧ 2 ^ f.expBits = 2 * w ∧ f.qmin = 2 - w - f.fracBits := by
  obtain ⟨x, hx⟩ := Nat.exists_eq_add_of_le' hf.two_le_exp
  refine ⟨2 ^ (x + 1), ?_, ?_, ?_, ?_⟩
  · have := Nat.two_pow_pos x
    rw [pow_succ]
    omega
  · rw [hx]
    push_cast
    rfl
  · rw [hx]
    ring
  · rw [Fmt.qmin, hx]
    push_cast
    ring

/-- k binades and a significand of one binade fill M binades only with a carry from the last one, or without. -/
theorem mul_le_add_iff {M k P r : Nat} (hP : 0 < P) (h1 : P ≤ r) (h2 : r ≤ 2 * P) :
    M * P ≤ k * P + r ↔ M ≤ k + 1 ∨ (M = k + 2 ∧ r = 2 * P) := by
  rcases lt_trichotomy M (k + 2) with h | rfl | h
  · have : M * P ≤ (k + 1) * P := Nat.mul_le_mul_right P (by omega)
    rw [Nat.succ_mul] at this
    omega
  · rw [Nat.add_mul]
    omega
  · have : (k + 3) * P ≤ M * P := Nat.mul_le_mul_right P (by omega)
    rw [Nat.add_mul] at this
    omega

/-- The result overflows exactly if the number so rounded is above the largest of the format. -/
theorem Fmt.overflow_iff (hf : f.Regular) (rm : RoundMode) (neg : Bool) (hm : 0 < m) (e : Int) :
    f.infBits ≤ f.roundBits rm neg m e ↔
      ReachesPower f rm (signUnit neg * (m * (2 : ℝ) ^ e)) ((2 : ℤ) ^ (f.expBits - 1)) := by
  obtain ⟨w, hw, hpow, hexp, hqmin⟩ := hf.exponents
  obtain ⟨n, hr, -⟩ := roundAt_rounds rm neg m e (f.place m e)
  obtain ⟨hhi, hlo⟩ := f.place_units (e := e) hm
  have hP := Nat.two_pow_pos f.fracBits
  have hn : n < 2 ^ (f.fracBits + 1) := by exact_mod_cast hr.le.trans_lt hhi
  have hrn := hr.le_result
  rw [reachesPower_iff f rm neg hm, hpow, Fmt.infBits, hexp, Fmt.roundBits]
  rw [pow_succ] at hn ⊢
  by_cases hq : f.qmin ≤ f.freePlace m e
  · have hp : f.place m e = f.freePlace m e := if_pos hq
    have hlo' := (f.freePlace_units (e := e) hm).1
    rw [hp] at hr hrn ⊢
    have : 2 ^ f.fracBits < n + 1 := by exact_mod_cast hlo'.trans_lt hr.lt
    rw [mul_le_add_iff hP (by omega) (by omega)]
    omega
  · have hp : f.place m e = f.qmin := if_neg hq
    have hM : 3 * 2 ^ f.fracBits ≤ (2 * w - 1) * 2 ^ f.fracBits := Nat.mul_le_mul_right _ (by omega)
    rw [hp] at hr hrn ⊢
    refine iff_of_false ?_ (by omega)
    rw [sub_self, Int.toNat_zero, Nat.zero_mul]
    omega

/-- It is tiny exactly if the number so rounded is below the smallest normal number. -/
theorem Fmt.tiny_iff (hf : f.Regular) (rm : RoundMode) (neg : Bool) (hm : 0 < m) (e : Int) :
    f.tiny rm neg m e = true ↔
      ¬ReachesPower f rm (signUnit neg * (m * (2 : ℝ) ^ e)) (2 - (2 : ℤ) ^ (f.expBits - 1)) := by
  obtain ⟨w, -, hpow, -, hqmin⟩ := hf.exponents
  rw [reachesPower_iff f rm neg hm, hpow]
  simp only [Fmt.tiny, Bool.and_eq_true, Bool.not_eq_true', Bool.and_eq_false_iff, decide_eq_true_eq, decide_eq_false_iff_not]
  omega

/-- A number that overflows is not below the smallest normal number. -/
theorem Fmt.reachesPower_of_overflow (hf : f.Regular) (hm : 0 < m) (h : f.infBits ≤ f.roundBits rm neg m e) :
    ReachesPower f rm (signUnit neg * (m * (2 : ℝ) ^ e)) (2 - (2 : ℤ) ^ (f.expBits - 1)) := by
  obtain ⟨w, hw, hpow, -, -⟩ := hf.exponents
  have ho := (Fmt.overflow_iff hf rm neg hm e).1 h
  rw [reachesPower_iff f rm neg hm, hpow] at ho ⊢
  omega

/-! ### Correct rounding -/

/-- Rounding gives the correctly rounded pattern, with its flags. -/
theorem Fmt.round_correct (hf : f.Regular) (rm : RoundMode) (neg : Bool) (hm : 0 < m) (e : Int) :
    CorrectlyRounded f rm (signUnit neg * (m * (2 : ℝ) ^ e)) (f.round rm neg m e) := by
  have hX : 0 < (m : ℝ) * 2 ^ e := mul_pos (by exact_mod_cast hm) (zpow_pos two_pos _)
  obtain ⟨n, hr, hx⟩ := f.roundBits_rounds hf rm neg hm e
  have hov := Fmt.overflow_iff hf rm neg hm e
  have hti := Fmt.tiny_iff hf rm neg hm e
  have hmin := Fmt.reachesPower_of_overflow (rm := rm) (neg := neg) (e := e) hf hm
  have hval := valueOf_finish_iff hf hr
  rw [Fmt.round_eq hm]
  obtain ⟨hnx, hof, huf, hinv⟩ := roundFlags_spec (decide (f.infBits ≤ f.roundBits rm neg m e))
    (roundAt rm neg m e (f.place m e)).2 (f.tiny rm neg m e)
  refine ⟨rounds_of_roundsOn hf hX hr hov, fun _ => ?_, ?_, ?_, ?_, hinv⟩
  · rw [f.neg_withSign neg ((f.finish_le_infBits ..).trans_lt f.infBits_lt_signBit)]
    simp only [signUnit_mul_lt_zero neg hX, Bool.decide_eq_true]
  · rw [hnx, hx, ne_eq (valueOf _ _), hval, decide_eq_true_eq, not_and_or, not_lt]
  · rw [hof, decide_eq_true_eq, hov]
  · rw [huf, hx, hti, ne_eq (valueOf _ _), hval, decide_eq_false_iff_not, ← not_le]
    exact ⟨fun ⟨_, hne, hb⟩ => ⟨fun hv => hne hv.2, hb⟩, fun ⟨hne, hb⟩ =>
      ⟨mt hmin hb, fun he => hne ⟨mt hmin hb, he⟩, hb⟩⟩

/-- Settles O44: both formats are regular. -/
theorem roundingIsCorrect : Obligations.RoundingIsCorrect := by
  intro f rm neg m e hf hm
  rw [mul_assoc]
  exact Fmt.round_correct (Fmt.regular_of_standard hf) rm neg hm e

end Sys2Proof.Machine
end

section
/-! SUPPORT. Every step keeps the bookkeeping of a hart that of its stream (20_memory.md R59, R66, R78). -/

namespace Sys2Proof.Machine

open Sys2Proof.Claims

variable {s t : State} {i : Instr}

/-- Whether an SC succeeded plays no part in pairing. -/
theorem role_listing (ok : Bool) (i : Instr) : (Instr.listing ok i).role = (Instr.listing false i).role := by
  cases i <;> rfl

/-- The pairing state after one more instruction is that of the longer stream. -/
theorem LrEffect.pairable {ok : Bool} (h : LrEffect i s t) (hs : s.hart.lr.map LrRecord.inst = pairableAfter s.hart.stream)
    (hpos : s.hart.pos = s.hart.stream.length) :
    t.hart.lr.map LrRecord.inst = pairableAfter ({ instr := i, scOk := ok } :: s.hart.stream) := by
  simp only [LrEffect] at h
  simp only [pairableAfter, Instance.listing, role_listing ok]
  cases hr : (Instr.listing false i).role <;> simp only [hr] at h ⊢
  case none => rw [h, hs]
  case lr => rw [h, hpos]
  case sc => rw [h, Option.map_none]

/-- An instruction keeps the bookkeeping of its hart. -/
theorem exec_bookkept (h : exec i s = .next t) (hs : Bookkept s.hart) : Bookkept t.hart := by
  obtain ⟨-, -, -, -, -, -, hpos, ok, hstream, hdeps⟩ := exec_kept h
  obtain ⟨hp, hd, hl⟩ := hs
  refine ⟨?_, ?_, ?_⟩
  · rw [hpos, hstream, List.length_cons, hp]
  · rw [hdeps, hstream, walkAll, hd, hp, Instance.listing]
  · rw [hstream]
    exact (exec_effect h).2.pairable hl hp

theorem State.turn_bookkept (h : s.turn = .next t) (hs : Bookkept s.hart) : Bookkept t.hart := by
  obtain ⟨-, rfl⟩ | ⟨-, -, rfl⟩ | ⟨-, -, i, -, hx⟩ := State.turn_next h
  · exact hs
  · exact hs
  · exact exec_bookkept hx hs

/-- What one turn keeps of the hart whose turn it is, a step keeps of every hart. -/
theorem step_keeps_harts {P : Hart → Prop} (hP : ∀ {u}, s.turn = .next u → P s.hart → P u.hart)
    (hs : ∀ h ∈ s.harts, P h) (h : step s = .next t) : ∀ h ∈ t.harts, P h := by
  obtain ⟨u, hu, rfl⟩ := step_next h
  obtain ⟨-, -, -, -, -, hh⟩ := u.yield_fields
  intro k hk
  rw [hh, List.mem_append, List.mem_singleton, (State.turn_outside hu).2] at hk
  rcases hk with hk | rfl
  · exact hs k (List.mem_cons_of_mem _ hk)
  · exact hP hu (hs _ (List.mem_cons_self ..))

/-- Settles O55: of the hart that steps, by the instruction's effect on the stream, the dependency sets and the pairing
state. -/
theorem stepKeepsBookkeeping : Obligations.StepKeepsBookkeeping :=
  fun _ _ hs h => step_keeps_harts State.turn_bookkept hs h

end Sys2Proof.Machine
end

section
/-! SUPPORT. Every step keeps memory canonical and fetched text unwritten (20_memory.md R108). -/

namespace Sys2Proof.Machine

open Sys2Proof.Claims

variable {s t : State} {i : Instr}

theorem mem_insertNat {n : Nat} {l : List Nat} {a : Nat} : a ∈ insertNat n l ↔ a = n ∨ a ∈ l := by
  induction l with
  | nil => simp [insertNat]
  | cons m l ih =>
    rw [insertNat]
    split_ifs with h1 h2
    · rw [List.mem_cons]
    · subst h2; simp
    · rw [List.mem_cons, ih, List.mem_cons]; tauto

/-- A set stays a rising list. -/
theorem insertNat_rising {n : Nat} {l : List Nat} (h : l.Pairwise (· < ·)) : (insertNat n l).Pairwise (· < ·) := by
  induction l with
  | nil => simp [insertNat]
  | cons m l ih =>
    obtain ⟨hm, hl⟩ := List.pairwise_cons.1 h
    rw [insertNat]
    split_ifs with h1 h2
    · refine List.pairwise_cons.2 ⟨fun a ha => ?_, h⟩
      rcases List.mem_cons.1 ha with rfl | ha
      · exact h1
      · exact h1.trans (hm a ha)
    · exact h
    · refine List.pairwise_cons.2 ⟨fun a ha => ?_, ih hl⟩
      rcases mem_insertNat.1 ha with rfl | ha
      · omega
      · exact hm a ha

/-- Noting a fetch adds the four addresses from pc on. -/
theorem State.mem_noteFetch {b : Nat} :
    b ∈ s.noteFetch.fetched ↔ b ∈ s.fetched ∨ (s.pc.toNat ≤ b ∧ b < s.pc.toNat + 4) := by
  simp only [State.noteFetch, mem_insertNat]
  constructor
  · rintro (h | h | h | h | h)
    on_goal 5 => exact .inl h
    all_goals exact .inr (by omega)
  · rintro (h | h)
    · exact .inr (.inr (.inr (.inr h)))
    · omega

theorem State.noteFetch_rising (h : s.fetched.Pairwise (· < ·)) : s.noteFetch.fetched.Pairwise (· < ·) :=
  insertNat_rising (insertNat_rising (insertNat_rising (insertNat_rising h)))

theorem State.written_eq_false {a n : Nat} : s.written a n = false ↔ ∀ x, a ≤ x → x < a + n → s.mem.at? x = none := by
  simp only [State.written, List.any_eq_false, List.mem_range, Bool.not_eq_true, Option.isSome_eq_false_iff,
    Option.isNone_iff_eq_none]
  constructor
  · intro h x h1 h2
    have := h (x - a) (by omega)
    rwa [Nat.add_sub_of_le h1] at this
  · exact fun h k hk => h (a + k) (by omega) (by omega)

/-- Fetching text that no store has written keeps memory sound. -/
theorem memorySound_noteFetch (hs : MemorySound s) (hw : s.written s.pc.toNat 4 = false) : MemorySound s.noteFetch := by
  obtain ⟨hm, hf, ht⟩ := hs
  refine ⟨hm, State.noteFetch_rising hf, fun a ha => ?_⟩
  rcases State.mem_noteFetch.1 ha with ha | ⟨h1, h2⟩
  · exact ht a ha
  · exact State.written_eq_false.1 hw a h1 h2

/-- A write to bytes that are not fetched keeps memory sound. -/
theorem memorySound_write {a n : Nat} {bs : List Byte} (hs : MemorySound s) (hf : t.fetched = s.fetched)
    (hm : t.mem = s.mem.write a bs) (hl : bs.length = n) (hu : Unfetched s a n) : MemorySound t := by
  obtain ⟨hw, hr, ht⟩ := hs
  refine ⟨hm ▸ Memory.wf_write hw a bs, hf ▸ hr, fun b hb => ?_⟩
  rw [hf] at hb
  rw [hm, Memory.at?_write_of_not_mem _ _ _ _ (hl ▸ hu b hb)]
  exact ht b hb

theorem memorySound_congr (hs : MemorySound s) (hf : t.fetched = s.fetched) (hm : t.mem = s.mem) : MemorySound t := by
  rw [MemorySound, hf, hm]
  exact hs

theorem exec_memorySound (h : exec i s = .next t) (hs : MemorySound s) : MemorySound t := by
  obtain ⟨-, hf, -⟩ := exec_kept h
  cases (exec_effect h).1 with
  | quiet hm _ => exact memorySound_congr hs hf hm
  | load _ _ _ _ _ _ _ _ _ hm _ => exact memorySound_congr hs hf hm
  | store _ _ _ _ _ _ _ _ hu hl _ _ _ hm _ => exact memorySound_write hs hf hm hl hu
  | amo _ _ _ _ _ hu hl _ _ _ hm _ => exact memorySound_write hs hf hm hl hu

theorem State.turn_memorySound (h : s.turn = .next t) (hs : MemorySound s) : MemorySound t := by
  obtain ⟨-, rfl⟩ | ⟨-, -, rfl⟩ | ⟨-, -, i, hi, hx⟩ := State.turn_next h
  · exact hs
  · exact hs
  · exact exec_memorySound hx (memorySound_noteFetch hs (State.fetch_ok hi).1)

/-- Settles O56: a fetch reaches no written byte, and a store writes no fetched one. -/
theorem stepKeepsMemorySound : Obligations.StepKeepsMemorySound := by
  intro s t hs h
  obtain ⟨u, hu, rfl⟩ := step_next h
  obtain ⟨-, hm, -, hf, -⟩ := u.yield_fields
  exact memorySound_congr (State.turn_memorySound hu hs) hf hm

/-- Settles O6: the definition of a step in this case, and the four addresses noted. -/
theorem stepRunsDecodedInstruction : Obligations.StepRunsDecodedInstruction := by
  intro s i rest hend hat hw hd
  have hf : s.fetch = .ok i := by simp [State.fetch, hw, hd]
  have ht : s.turn = exec i s.noteFetch := by simp [State.turn, hend, hat, hf]
  refine ⟨?_, rfl, fun b => State.mem_noteFetch⟩
  rw [step, ht]
  cases exec i s.noteFetch <;> rfl

end Sys2Proof.Machine
end

section
/-! SUPPORT. The streams of the harts: where each `Instance` stands, which hart has which, and what a step adds. -/

namespace Sys2Proof.Machine

open Sys2Proof.Claims

variable {s t : State}

/-- Positions count from the oldest `Instance` (10_state.md R35). -/
theorem streamAt_eq (l : List Instance) (p : Nat) : streamAt l p = l.reverse[p]? := by
  unfold streamAt
  split_ifs with h
  · rw [List.getElem?_reverse h]
  · rw [List.getElem?_eq_none (by simpa using h)]

theorem streamAt_lt {l : List Instance} {p : Nat} {n : Instance} (h : streamAt l p = some n) : p < l.length := by
  rw [streamAt_eq] at h
  simpa using (List.getElem?_eq_some_iff.1 h).1

/-- An `Instance` stays where it is when the stream grows. -/
theorem streamAt_of_suffix {l m : List Instance} (hs : l <:+ m) {p : Nat} (hp : p < l.length) :
    streamAt m p = streamAt l p := by
  obtain ⟨e, rfl⟩ := hs
  rw [streamAt_eq, streamAt_eq, List.reverse_append, List.getElem?_append_left (by simpa using hp)]

/-- The newest `Instance`. -/
theorem streamAt_length (n : Instance) (l : List Instance) : streamAt (n :: l) l.length = some n := by
  rw [streamAt_eq]
  simp

/-- The stream of a hart, by its number. -/
theorem State.streamOf_of_mem (hs : (s.harts.map Hart.id).Nodup) {k : Hart} (hk : k ∈ s.harts) :
    s.streamOf k.id = k.stream := by
  unfold State.streamOf
  cases hf : s.harts.find? (fun t => t.id == k.id) with
  | none => exact absurd (List.find?_eq_none.1 hf k hk) (by simp)
  | some j =>
    have hj : j.id = k.id := by simpa using List.find?_some hf
    rw [List.inj_on_of_nodup_map hs (List.mem_of_find?_eq_some hf) hk hj]

/-- No hart has this number. -/
theorem State.streamOf_of_not_mem {h : Nat} (hh : ∀ k ∈ s.harts, k.id ≠ h) : s.streamOf h = [] := by
  unfold State.streamOf
  rw [List.find?_eq_none.2 (fun k hk => by simpa using hh k hk)]

/-- The instances of the execution so far are those of the streams. -/
theorem State.execution_inst (h p : Nat) : s.execution.inst h p = streamAt (s.streamOf h) p := by
  unfold State.execution State.streamOf
  cases hf : s.harts.find? (fun t => t.id == h) <;> simp [hf, streamAt]

/-- What a turn does to its hart: a hart that has ended, or ends here, keeps its stream; any other runs one instruction. -/
def Turned (k k' : Hart) : Prop :=
  k'.id = k.id ∧
  ((k'.ended = true ∧ k'.stream = k.stream ∧ k'.pos = k.pos) ∨
    (k.ended = false ∧ ∃ n, k'.stream = n :: k.stream ∧ k'.pos = k.pos + 1))

theorem State.turn_turned (h : s.turn = .next t) : Turned s.hart t.hart := by
  obtain ⟨he, rfl⟩ | ⟨-, -, rfl⟩ | ⟨he, -, i, -, hx⟩ := State.turn_next h
  · exact ⟨rfl, .inl ⟨he, rfl, rfl⟩⟩
  · exact ⟨rfl, .inl ⟨rfl, rfl, rfl⟩⟩
  · obtain ⟨-, -, -, hid, -, -, hpos, ok, hstream, -⟩ := exec_kept hx
    exact ⟨hid, .inr ⟨he, _, hstream, hpos⟩⟩

theorem Turned.suffix {k k' : Hart} (h : Turned k k') : k.stream <:+ k'.stream := by
  obtain ⟨-, ⟨-, hs, -⟩ | ⟨-, n, hs, -⟩⟩ := h
  · exact ⟨[], hs.symm⟩
  · exact ⟨[n], hs.symm⟩

theorem Turned.pos {k k' : Hart} (h : Turned k k') (hk : k.pos = k.stream.length) : k'.pos = k'.stream.length := by
  obtain ⟨-, ⟨-, hs, hp⟩ | ⟨-, n, hs, hp⟩⟩ := h
  · rw [hp, hs, hk]
  · rw [hp, hs, hk, List.length_cons]

/-- After a step the hart that had its turn is the last of the ring. -/
theorem step_harts (h : step s = .next t) : ∃ k, Turned s.hart k ∧ t.harts = s.others ++ [k] ∧ t.params = s.params := by
  obtain ⟨u, hu, rfl⟩ := step_next h
  obtain ⟨hp, -, -, -, -, hh⟩ := u.yield_fields
  obtain ⟨hup, huo⟩ := State.turn_outside hu
  exact ⟨u.hart, State.turn_turned hu, huo ▸ hh, hp.trans hup⟩

/-- The harts keep their numbers. -/
theorem step_ids (h : step s = .next t) : (t.harts.map Hart.id).Perm (s.harts.map Hart.id) := by
  obtain ⟨k, ⟨hid, -⟩, hh, -⟩ := step_harts h
  rw [hh, List.map_append, List.map_singleton, hid]
  exact List.perm_append_singleton _ _

/-- A step only adds to the streams. -/
theorem step_streamOf (hs : (s.harts.map Hart.id).Nodup) (h : step s = .next t) (n : Nat) :
    s.streamOf n <:+ t.streamOf n := by
  have ht := (step_ids h).nodup_iff.2 hs
  obtain ⟨k, hk, hh, -⟩ := step_harts h
  by_cases hn : ∃ j ∈ s.harts, j.id = n
  · obtain ⟨j, hj, rfl⟩ := hn
    rw [State.streamOf_of_mem hs hj]
    rcases List.mem_cons.1 hj with rfl | hj
    · rw [← hk.1, State.streamOf_of_mem ht (hh ▸ by simp)]
      exact hk.suffix
    · rw [State.streamOf_of_mem ht (hh ▸ by simp [hj])]
  · push Not at hn
    rw [State.streamOf_of_not_mem hn]
    exact List.nil_suffix

end Sys2Proof.Machine
end

section
/-! SUPPORT. Every step keeps the history recorded as the order check needs it (20_memory.md R58, R66; 10_state.md R37). -/

namespace Sys2Proof.Machine

open Sys2Proof.Claims

variable {s t : State} {a n : Nat}

/-- No byte is in both operations. -/
def Apart (a b : MemOp) : Prop := ∀ x, a.has x → ¬ b.has x

/-- Operations on the pieces of one access are apart. -/
theorem Cut.apart {ps : List (Nat × Nat)} (h : Cut n ps) {f : Nat × Nat → MemOp}
    (hf : ∀ p, (f p).addr = a + p.1 ∧ (f p).len = p.2) : (ps.map f).reverse.Pairwise Apart := by
  rw [List.pairwise_reverse, List.pairwise_map]
  refine h.1.imp (fun {p q} hpq x hq hp => ?_)
  obtain ⟨hpa, hpl⟩ := hf p
  obtain ⟨hqa, hql⟩ := hf q
  simp only [MemOp.has] at hp hq
  omega

/-- What an instruction adds is apart, and it adds something only if it gives rise to memory operations. -/
theorem MemEffect.apart (h : MemEffect s t) :
    ∃ ops, t.history = ops ++ s.history ∧ ops.Pairwise Apart ∧ (ops ≠ [] → Accessed t) := by
  cases h with
  | quiet _ hh => exact ⟨[], hh, .nil, fun h => absurd rfl h⟩
  | load _ _ _ _ _ hc _ _ ha _ hh => exact ⟨_, hh, hc.apart (fun _ => ⟨rfl, rfl⟩), fun _ => ha⟩
  | store _ _ _ _ _ _ _ hc _ _ _ _ ha _ hh => exact ⟨_, hh, hc.apart (fun _ => ⟨rfl, rfl⟩), fun _ => ha⟩
  | amo _ _ _ _ _ _ _ _ _ ha _ hh => exact ⟨[_], hh, List.pairwise_singleton _ _, fun _ => ha⟩

/-- The operations ops of one instruction are sound, are those of the position the hart of s is at, are apart, and if there is
one, the instruction, now the newest of the stream of k, gives rise to memory operations. -/
def Added (s : State) (k : Hart) (ops : List MemOp) : Prop :=
  (∀ o ∈ ops, SoundRecord s o ∧ o.hart = s.hart.id ∧ o.inst = s.hart.pos) ∧ ops.Pairwise Apart ∧
  (ops ≠ [] → ∃ n, k.stream = n :: s.hart.stream ∧ n.listing.memory = true)

theorem added_nil (s : State) (k : Hart) : Added s k [] := ⟨by simp, .nil, fun h => absurd rfl h⟩

theorem State.turn_added (h : s.turn = .next t) : ∃ ops, t.history = ops ++ s.history ∧ Added s t.hart ops := by
  obtain ⟨-, rfl⟩ | ⟨-, -, rfl⟩ | ⟨-, -, i, -, hx⟩ := State.turn_next h
  · exact ⟨[], rfl, added_nil ..⟩
  · exact ⟨[], rfl, added_nil ..⟩
  · obtain ⟨ops, hh, hops, -⟩ := appends_of_memEffect (s := s.noteFetch) (exec_kept hx).1 (exec_effect hx).1
    obtain ⟨ops', hh', hap, hac⟩ := (exec_effect hx).1.apart
    obtain rfl : ops' = ops := List.append_cancel_right (hh'.symm.trans hh)
    obtain ⟨-, -, -, -, -, -, -, ok, hstream, -⟩ := exec_kept hx
    refine ⟨_, hh, hops, hap, fun hne => ?_⟩
    obtain ⟨n, l, hn, hm⟩ := hac hne
    rw [hn] at hstream
    obtain ⟨rfl, rfl⟩ := List.cons.inj hstream
    exact ⟨_, hn, hm⟩

/-- What a step does: one hart has its turn and is the last of the ring, and its operations are added to the history. -/
theorem step_added (h : step s = .next t) :
    ∃ k ops, Turned s.hart k ∧ t.harts = s.others ++ [k] ∧ t.params = s.params ∧ t.history = ops ++ s.history ∧
      Added s k ops := by
  obtain ⟨u, hu, rfl⟩ := step_next h
  obtain ⟨hp, -, hhist, -, -, hh⟩ := u.yield_fields
  obtain ⟨hup, huo⟩ := State.turn_outside hu
  obtain ⟨ops, hops, ha⟩ := State.turn_added hu
  exact ⟨u.hart, ops, State.turn_turned hu, huo ▸ hh, hp.trans hup, hhist.trans hops, ha⟩

/-- An operation is recorded: in main memory, and of an instruction of the stream that gives rise to memory operations. -/
def RecordedOp (s : State) (o : MemOp) : Prop :=
  o.region = .main ∧ (∀ x, o.has x → s.execution.main x) ∧
  ∃ n, streamAt (s.streamOf o.hart) o.inst = some n ∧ n.listing.memory = true

theorem recorded_iff : Recorded s ↔
    s.history.Nodup ∧ DisjointParts s.execution ∧ ∀ o ∈ s.history, RecordedOp s o := Iff.rfl

/-- An operation stays recorded as the run goes on. -/
theorem RecordedOp.step {o : MemOp} (hs : (s.harts.map Hart.id).Nodup) (h : step s = .next t) (ho : RecordedOp s o) :
    RecordedOp t o := by
  obtain ⟨hr, hm, n, hn, hmem⟩ := ho
  obtain ⟨-, -, -, hp⟩ := step_harts h
  refine ⟨hr, fun x hx => ?_, n, ?_, hmem⟩
  · simp only [State.execution, State.xlen, hp]
    exact hm x hx
  · rw [streamAt_of_suffix (step_streamOf hs h o.hart) (streamAt_lt hn), hn]

/-- The main-memory bytes are those of a sound record. -/
theorem SoundRecord.main {o : MemOp} (h : SoundRecord s o) {x : Nat} (hx : o.has x) : s.execution.main x := by
  obtain ⟨-, -, -, -, -, hm, hsz, -⟩ := h
  have hsz' : o.addr + o.len ≤ s.xlen.size := by
    rw [size_eq_two_pow] at hsz
    exact_mod_cast hsz
  exact ⟨lt_of_lt_of_le hx.2 hsz', hm x hx⟩

theorem Added.nodup {k : Hart} {ops : List MemOp} (h : Added s k ops) : ops.Nodup := by
  obtain ⟨hops, hap, -⟩ := h
  refine List.Pairwise.imp_of_mem (fun {a b} ha _ hab hne => ?_) hap
  have hl := (hops a ha).1.2.1
  exact hab a.addr ⟨le_rfl, by omega⟩ (hne ▸ ⟨le_rfl, by omega⟩)

theorem Added.disjoint {k : Hart} {ops : List MemOp} (h : Added s k ops) {a b : MemOp} (ha : a ∈ ops) (hb : b ∈ ops) {x : Nat}
    (hax : a.has x) (hbx : b.has x) : a = b := by
  by_contra hne
  have : Std.Symm Apart := ⟨fun _ _ h x hb ha => h x ha hb⟩
  exact h.2.1.forall ha hb hne x hax hbx

/-- The new operations are recorded in the state after the step. -/
theorem Added.recordedOp {k : Hart} {ops : List MemOp} (h : Added s k ops) (hid : k.id = s.hart.id)
    (hpos : s.hart.pos = s.hart.stream.length) (ht : (t.harts.map Hart.id).Nodup) (hk : k ∈ t.harts)
    (hp : t.params = s.params) {o : MemOp} (ho : o ∈ ops) : RecordedOp t o := by
  obtain ⟨hops, -, hmem⟩ := h
  obtain ⟨hsound, hh, hi⟩ := hops o ho
  obtain ⟨n, hn, hm⟩ := hmem (List.ne_nil_of_mem ho)
  refine ⟨hsound.2.2.2.2.1, fun x hx => ?_, n, ?_, hm⟩
  · simp only [State.execution, State.xlen, hp]
    exact SoundRecord.main hsound hx
  · rw [hh, ← hid, State.streamOf_of_mem ht hk, hn, hi, hpos, streamAt_length]

/-- An operation recorded before is of an earlier position than the new ones. -/
theorem RecordedOp.older (hs : (s.harts.map Hart.id).Nodup) (hpos : s.hart.pos = s.hart.stream.length) {o : MemOp}
    (ho : RecordedOp s o) (hh : o.hart = s.hart.id) : o.inst < s.hart.pos := by
  obtain ⟨-, -, n, hn, -⟩ := ho
  rw [hh, State.streamOf_of_mem hs (List.mem_cons_self ..)] at hn
  exact hpos ▸ streamAt_lt hn

/-- Settles O59: the operations a step adds are of a new position, so they are neither listed before nor of an instruction
that has operations there. -/
theorem stepKeepsRecorded : Obligations.StepKeepsRecorded := by
  intro s t hs hpos hrec h
  obtain ⟨hnodup, hdis, hops⟩ := recorded_iff.1 hrec
  obtain ⟨k, ops, hk, hh, hp, hhist, hadd⟩ := step_added h
  have ht := (step_ids h).nodup_iff.2 hs
  have hsp := hpos _ (List.mem_cons_self ..)
  have old {o : MemOp} (ho : o ∈ s.history) (hhart : o.hart = s.hart.id) : o.inst < s.hart.pos :=
    (hops o ho).older hs hsp hhart
  have apart {o p : MemOp} (ho : o ∈ s.history) (hp : p ∈ ops) (hhart : o.hart = p.hart) : o.inst ≠ p.inst := by
    obtain ⟨-, h1, h2⟩ := hadd.1 p hp
    have := old ho (hhart.trans h1)
    omega
  refine ⟨ht, step_keeps_harts (fun hu => (State.turn_turned hu).pos) hpos h, recorded_iff.2 ⟨?_, ?_, ?_⟩⟩
  · rw [hhist]
    exact List.nodup_append.2 ⟨hadd.nodup, hnodup, fun p hp o ho he => apart ho hp (he ▸ rfl) (he ▸ rfl)⟩
  · intro a b x ha hb hhart hinst hax hbx
    replace ha : a ∈ ops ++ s.history := hhist ▸ ha
    replace hb : b ∈ ops ++ s.history := hhist ▸ hb
    rcases List.mem_append.1 ha with ha | ha <;> rcases List.mem_append.1 hb with hb | hb
    · exact hadd.disjoint ha hb hax hbx
    · exact absurd hinst.symm (apart hb ha hhart.symm)
    · exact absurd hinst (apart ha hb hhart)
    · exact hdis a b x ha hb hhart hinst hax hbx
  · intro o ho
    rw [hhist, List.mem_append] at ho
    rcases ho with ho | ho
    · exact hadd.recordedOp hk.1 hsp ht (hh ▸ by simp) hp ho
    · exact (hops o ho).step hs h

end Sys2Proof.Machine
end

section
/-! SUPPORT. The dependency walk computes the syntactic dependencies (20_memory.md R73, R78): a position is in the set of a unit
exactly if it is carried there, which is read off the stream one `Instance` at a time, and that is the relation of R73. -/

namespace Sys2Proof.Machine

open Sys2Proof.Claims

/-! ### The sets of the walk -/

theorem mem_unionNat {a b : List Nat} {i : Nat} : i ∈ unionNat a b ↔ i ∈ a ∨ i ∈ b := by
  unfold unionNat
  induction a with
  | nil => simp
  | cons n a ih => rw [List.foldr_cons, mem_insertNat, ih, List.mem_cons, or_assoc]

/-- Each unit has a number of its own. -/
theorem DepUnit.key_inj {u v : DepUnit} (h : u.key = v.key) : u = v := by
  cases u <;> cases v <;> simp only [DepUnit.key] at h
  case x.x a b => rw [BitVec.eq_of_toNat_eq h]
  case f.f a b => rw [BitVec.eq_of_toNat_eq (by omega : a.toNat = b.toNat)]
  case frm.frm => rfl
  case flag.flag a b => rw [Fin.ext (by omega : a.val = b.val)]
  case csr.csr a b => rw [BitVec.eq_of_toNat_eq (by omega : a.toNat = b.toNat)]
  all_goals omega

theorem setDep_wf {m : Sparse (List Nat)} (h : Sparse.wf m) (u : DepUnit) (l : List Nat) : Sparse.wf (setDep m u l) := by
  unfold setDep
  split_ifs
  · exact Sparse.wf_del h _
  · exact Sparse.wf_put h _ _

/-- Replacing the set of one unit. -/
theorem of_setDep {m : Sparse (List Nat)} (h : Sparse.wf m) (u v : DepUnit) (l c : List Nat) :
    ({ deps := setDep m u l, ctrl := c } : DepState).of v = if v = u then l else ({ deps := m, ctrl := c } : DepState).of v := by
  have hk : u.key = v.key ↔ v = u := ⟨fun hk => (DepUnit.key_inj hk).symm, fun hv => hv ▸ rfl⟩
  unfold DepState.of setDep
  by_cases hl : l = []
  · simp only [if_pos hl, Sparse.get?_del h, hk]
    split_ifs <;> simp [hl]
  · simp only [if_neg hl, Sparse.get?_put, hk]
    split_ifs <;> rfl

/-- Replacing the sets of some units. -/
theorem of_setDeps (f : DepUnit → List Nat) (qs : List DepUnit) {m : Sparse (List Nat)} (h : Sparse.wf m) (v : DepUnit)
    (c : List Nat) :
    Sparse.wf (qs.foldl (fun m q => setDep m q (f q)) m) ∧
    ({ deps := qs.foldl (fun m q => setDep m q (f q)) m, ctrl := c } : DepState).of v =
      if v ∈ qs then f v else ({ deps := m, ctrl := c } : DepState).of v := by
  induction qs generalizing m with
  | nil => exact ⟨h, by simp⟩
  | cons q qs ih =>
    obtain ⟨hwf, hof⟩ := ih (setDep_wf h q (f q))
    refine ⟨hwf, ?_⟩
    rw [List.foldl_cons, hof, of_setDep h]
    by_cases hv : v = q
    · subst hv; simp
    · simp [hv]

theorem DepState.mem_ofAll {d : DepState} {us : List DepUnit} {i : Nat} : i ∈ d.ofAll us ↔ ∃ u ∈ us, i ∈ d.of u := by
  unfold DepState.ofAll
  induction us with
  | nil => simp
  | cons u us ih => rw [List.foldr_cons, mem_unionNat, ih]; simp

/-- Step (b) of R78: what is carried into a destination, and the instruction itself if it gives rise to a memory operation. -/
theorem DepState.mem_after {d : DepState} {l : Listing} {j i : Nat} {q : DepUnit} :
    i ∈ d.after l j q ↔ (l.memory = true ∧ i = j) ∨ ∃ p ∈ l.carriers q, i ∈ d.of p := by
  unfold DepState.after
  split_ifs with hm
  · rw [mem_insertNat, DepState.mem_ofAll]; simp [hm]
  · rw [DepState.mem_ofAll]; simp [hm]

/-- The set of a unit after one more instruction. -/
theorem DepState.of_walk {d : DepState} (h : Sparse.wf d.deps) (l : Listing) (j : Nat) (v : DepUnit) :
    (d.walk l j).of v = if v ∈ l.destinations then d.after l j v else d.of v :=
  (of_setDeps (d.after l j) l.destinations h v _).2

/-- `ctrl` after one more instruction: step (a) of R78. -/
theorem DepState.mem_ctrl_walk {d : DepState} {l : Listing} {j i : Nat} :
    i ∈ (d.walk l j).ctrl ↔ (l.control = true ∧ ∃ u ∈ l.sources, i ∈ d.of u) ∨ i ∈ d.ctrl := by
  simp only [DepState.walk]
  split_ifs with hc
  · rw [mem_unionNat, DepState.mem_ofAll]; simp [hc]
  · simp [hc]

theorem walkAll_wf (l : List Instance) : Sparse.wf (walkAll l).deps := by
  induction l with
  | nil => exact List.Pairwise.nil
  | cons n older ih => exact (of_setDeps ((walkAll older).after n.listing older.length) _ ih .frm []).1

theorem depsBefore_wf (l : List Instance) (p : Nat) : Sparse.wf (depsBefore l p).deps := walkAll_wf _

theorem depsBefore_zero (l : List Instance) : depsBefore l 0 = .start := by simp [depsBefore, walkAll]

/-- The bookkeeping after the instruction at a position. -/
theorem depsBefore_succ {l : List Instance} {p : Nat} {n : Instance} (h : streamAt l p = some n) :
    depsBefore l (p + 1) = (depsBefore l p).walk n.listing p := by
  have hp := streamAt_lt h
  have hn : l[l.length - (p + 1)] = n := by
    rw [streamAt, if_pos hp, show l.length - 1 - p = l.length - (p + 1) by omega, List.getElem?_eq_getElem (by omega)] at h
    exact Option.some.inj h
  have hd : l.drop (l.length - (p + 1)) = n :: l.drop (l.length - p) := by
    rw [List.drop_eq_getElem_cons (by omega), hn, show l.length - (p + 1) + 1 = l.length - p by omega]
  rw [depsBefore, hd, walkAll, List.length_drop, show l.length - (l.length - p) = p by omega, depsBefore]

/-! ### What the listings carry -/

theorem Listing.carriers_plain {l : Listing} (hm : l.mark = .plain) {p q : DepUnit} (h : p ∈ l.carriers q) :
    p ∈ l.sources ∧ q ∈ l.destinations := by
  simp only [Listing.carriers, hm, List.mem_append] at h
  simp only [Listing.sources, Listing.destinations, List.mem_append]
  rcases h with h | h <;> split_ifs at h with hq
  · exact ⟨.inl h, hq⟩
  · simp at h
  · obtain rfl := List.mem_singleton.1 h
    exact ⟨.inr hq, .inr hq⟩
  · simp at h

theorem Listing.carriers_dagger {l : Listing} (hm : l.mark = .dagger) {p q : DepUnit} : ¬ p ∈ l.carriers q := by
  simp [Listing.carriers, hm]

theorem Listing.carriers_note {l : Listing} {ps : List (List DepUnit × List DepUnit)} (hm : l.mark = .note ps) {p q : DepUnit} :
    p ∈ l.carriers q ↔ ∃ c ∈ ps, p ∈ c.1 ∧ q ∈ c.2 := by
  simp only [Listing.carriers, hm, List.mem_flatMap]
  refine exists_congr fun c => and_congr_right fun _ => ?_
  split_ifs with hq <;> simp [hq]

theorem Listing.carriers_csrReg {rd rs1 : Reg} {csr : BitVec 12} {r w : Bool} {p q : DepUnit}
    (h : p ∈ (Listing.csrReg rd rs1 csr r w).carriers q) :
    p ∈ (Listing.csrReg rd rs1 csr r w).sources ∧ q ∈ (Listing.csrReg rd rs1 csr r w).destinations := by
  rw [Listing.carriers_note rfl] at h
  simp only [List.mem_cons, List.not_mem_nil, or_false, exists_eq_or_imp, exists_eq_left] at h
  simp only [Listing.sources, Listing.cell, Listing.destinations, Listing.csrReg, Listing.empty, List.mem_append]
  tauto

theorem Listing.carriers_csrImm {rd : Reg} {csr : BitVec 12} {r w : Bool} {p q : DepUnit}
    (h : p ∈ (Listing.csrImm rd csr r w).carriers q) :
    p ∈ (Listing.csrImm rd csr r w).sources ∧ q ∈ (Listing.csrImm rd csr r w).destinations := by
  rw [Listing.carriers_note rfl] at h
  simp only [List.mem_cons, List.not_mem_nil, or_false, exists_eq_left] at h
  simp only [Listing.sources, Listing.cell, Listing.destinations, Listing.csrImm, Listing.empty, List.mem_append]
  tauto

/-- An instruction carries its sources into its destinations only. -/
theorem Instance.carriers_mem {n : Instance} {p q : DepUnit} (h : p ∈ n.listing.carriers q) :
    p ∈ n.listing.sources ∧ q ∈ n.listing.destinations := by
  obtain ⟨i, ok⟩ := n
  cases i
  case csrrw | csrrs | csrrc => exact Listing.carriers_csrReg h
  case csrrwi | csrrsi | csrrci => exact Listing.carriers_csrImm h
  case jalr | lb | lh | lw | lbu | lhu | lwu | ld | flw | fld | lrW | lrD | scW | scD | amoswapW | amoaddW | amoxorW | amoandW
     | amoorW | amominW | amomaxW | amominuW | amomaxuW | amoswapD | amoaddD | amoxorD | amoandD | amoorD | amominD | amomaxD
     | amominuD | amomaxuD => exact absurd h (Listing.carriers_dagger rfl)
  all_goals exact Listing.carriers_plain rfl h

/-! ### What is carried where -/

/-- What the instruction at position i writes to unit s stands, carried on by the instructions between, in unit r just before
position p. -/
def Carried (l : List Instance) (i : Nat) (s : DepUnit) : (p : Nat) → (r : DepUnit) → Prop
  | 0, _ => False
  | p + 1, r =>
    ∃ c, streamAt l p = some c ∧
      if r ∈ c.listing.destinations then (i = p ∧ s = r) ∨ ∃ q ∈ c.listing.carriers r, Carried l i s p q
      else Carried l i s p r

variable {l : List Instance} {i j p : Nat} {s r : DepUnit} {c : Instance}

theorem carried_dest (hc : streamAt l p = some c) (hr : r ∈ c.listing.destinations) :
    Carried l i s (p + 1) r ↔ (i = p ∧ s = r) ∨ ∃ q ∈ c.listing.carriers r, Carried l i s p q := by
  rw [Carried, hc]
  simp [hr]

theorem carried_other (hc : streamAt l p = some c) (hr : r ∉ c.listing.destinations) :
    Carried l i s (p + 1) r ↔ Carried l i s p r := by
  rw [Carried, hc]
  simp [hr]

/-- There is an `Instance` at every position of the stream. -/
theorem streamAt_some (h : p < l.length) : ∃ c, streamAt l p = some c := by
  rw [streamAt_eq]
  exact ⟨_, List.getElem?_eq_getElem (by simpa using h)⟩

/-- Some instruction that gives rise to a memory operation is at the position. -/
def MemoryAt (l : List Instance) (i : Nat) : Prop := ∃ m, streamAt l i = some m ∧ m.listing.memory = true

/-- The walk keeps in the set of a unit the memory instructions whose results are carried there. -/
theorem mem_of_depsBefore (hp : p ≤ l.length) :
    i ∈ (depsBefore l p).of r ↔ MemoryAt l i ∧ ∃ s, Carried l i s p r := by
  induction p generalizing r with
  | zero => simp [depsBefore_zero, DepState.start, DepState.of, Sparse.get?, Carried]
  | succ p ih =>
    obtain ⟨c, hc⟩ := streamAt_some (l := l) (p := p) (by omega)
    have ih {r : DepUnit} := ih (r := r) (by omega)
    rw [depsBefore_succ hc, DepState.of_walk (depsBefore_wf l p)]
    by_cases hr : r ∈ c.listing.destinations
    · simp only [if_pos hr, DepState.mem_after, ih, carried_dest hc hr]
      constructor
      · rintro (⟨hm, rfl⟩ | ⟨q, hq, hm, s, hs⟩)
        · exact ⟨⟨c, hc, hm⟩, r, .inl ⟨rfl, rfl⟩⟩
        · exact ⟨hm, s, .inr ⟨q, hq, hs⟩⟩
      · rintro ⟨hm, s, ⟨rfl, rfl⟩ | ⟨q, hq, hs⟩⟩
        · obtain ⟨m, hm, hmem⟩ := hm
          obtain rfl := Option.some.inj (hm.symm.trans hc)
          exact .inl ⟨hmem, rfl⟩
        · exact .inr ⟨q, hq, hm, s, hs⟩
    · simp only [if_neg hr, ih, carried_other hc hr]

/-! ### Carrying is the syntactic dependency -/

/-- A result stays in its unit until an instruction writes it. -/
theorem carried_of_kept (hij : i < j) (hj : j ≤ l.length) (hi : streamAt l i = some c) (hr : r ∈ c.listing.destinations)
    (hk : ∀ k d, i < k → k < j → streamAt l k = some d → r ∉ d.listing.destinations) : Carried l i r j r := by
  induction j, hij using Nat.le_induction with
  | base => exact (carried_dest hi hr).2 (.inl ⟨rfl, rfl⟩)
  | succ j hij ih =>
    obtain ⟨d, hd⟩ := streamAt_some (l := l) (p := j) (by omega)
    exact (carried_other hd (hk j d hij (by omega) hd)).2 (ih (by omega) (fun k e h1 h2 => hk k e h1 (by omega)))

/-- What an instruction carries on reaches where its result does. -/
theorem Carried.trans {m : Nat} {q u : DepUnit} (h : Carried l m q j r) (hc : streamAt l m = some c)
    (hu : u ∈ c.listing.carriers q) (hi : Carried l i s m u) : Carried l i s j r := by
  induction j generalizing r with
  | zero => exact h.elim
  | succ j ih =>
    obtain ⟨d, hd, h⟩ := h
    split_ifs at h with hr
    · rw [carried_dest hd hr]
      rcases h with ⟨rfl, rfl⟩ | ⟨v, hv, h⟩
      · obtain rfl := Option.some.inj (hc.symm.trans hd)
        exact .inr ⟨u, hu, hi⟩
      · exact .inr ⟨v, hv, ih h⟩
    · exact (carried_other hd hr).2 (ih h)

/-- The last instruction that wrote the unit is the one whose result it is, or has carried it there. -/
theorem Carried.last (h : Carried l i s j r) : ∃ m c, m < j ∧ streamAt l m = some c ∧ r ∈ c.listing.destinations ∧
    (∀ k d, m < k → k < j → streamAt l k = some d → r ∉ d.listing.destinations) ∧
    ((i = m ∧ s = r) ∨ ∃ q ∈ c.listing.carriers r, Carried l i s m q) := by
  induction j with
  | zero => exact h.elim
  | succ j ih =>
    obtain ⟨d, hd, h⟩ := h
    split_ifs at h with hr
    · exact ⟨j, d, by omega, hd, hr, fun k _ h1 h2 => by omega, h⟩
    · obtain ⟨m, c, hm, hc, hrc, hk, h⟩ := ih h
      refine ⟨m, c, by omega, hc, hrc, fun k e h1 h2 he => ?_, h⟩
      rcases Nat.lt_succ_iff_lt_or_eq.1 h2 with h2 | rfl
      · exact hk k e h1 h2 he
      · obtain rfl := Option.some.inj (he.symm.trans hd)
        exact hr

variable {E : Execution} {h : Nat}

theorem Execution.SynDep.carried (hE : ∀ p, E.inst h p = streamAt l p) (hd : E.SynDep h i s j r) : Carried l i s j r := by
  induction hd with
  | direct hij hm hn hr _ hk =>
    rw [hE] at hm hn
    exact carried_of_kept hij (streamAt_lt hn).le hm hr (fun k d h1 h2 hd => hk k d h1 h2 ((hE k).trans hd))
  | via _ _ hc hp ih1 ih2 => exact ih1.trans ((hE _).symm.trans hc) hp ih2

/-- The unit through which an instruction depends is one of its sources. -/
theorem Execution.SynDep.source (hd : E.SynDep h i s j r) : ∃ n, E.inst h j = some n ∧ r ∈ n.listing.sources := by
  induction hd with
  | direct _ _ hn _ hr _ => exact ⟨_, hn, hr⟩
  | via _ _ _ _ ih1 _ => exact ih1

theorem Execution.SynDep.lt (hd : E.SynDep h i s j r) : i < j := by
  induction hd with
  | direct hij => exact hij
  | via _ _ _ _ ih1 ih2 => exact ih2.trans ih1

theorem Carried.synDep (hE : ∀ p, E.inst h p = streamAt l p) (hd : Carried l i s j r) {n : Instance}
    (hn : streamAt l j = some n) (hr : r ∈ n.listing.sources) : E.SynDep h i s j r := by
  induction j using Nat.strong_induction_on generalizing r n with
  | _ j ih =>
    obtain ⟨m, c, hm, hc, hrc, hk, hd⟩ := hd.last
    have hmj : E.SynDep h m r j r := .direct hm ((hE m).trans hc) ((hE j).trans hn) hrc hr
      (fun k d h1 h2 hd => hk k d h1 h2 ((hE k).symm.trans hd))
    rcases hd with ⟨rfl, rfl⟩ | ⟨q, hq, hd⟩
    · exact hmj
    · exact .via hmj (ih m hm hd hc (Instance.carriers_mem hq).1) ((hE m).trans hc) hq

/-- An instruction depends, through one of its sources, on the instructions whose results are carried there. -/
theorem depends_iff_carried (hE : ∀ p, E.inst h p = streamAt l p) {n : Instance} (hn : streamAt l j = some n)
    (hr : r ∈ n.listing.sources) : E.depends h i j r ↔ ∃ s, Carried l i s j r :=
  exists_congr fun _ => ⟨fun hd => hd.carried hE, fun hd => hd.synDep hE hn hr⟩

/-- The set of a source is the memory instructions on which the instruction depends through it. -/
theorem mem_depsBefore_iff (hE : ∀ p, E.inst h p = streamAt l p) {n : Instance} (hn : streamAt l j = some n)
    (hr : r ∈ n.listing.sources) : i ∈ (depsBefore l j).of r ↔ MemoryAt l i ∧ E.depends h i j r := by
  rw [mem_of_depsBefore (streamAt_lt hn).le, depends_iff_carried hE hn hr]

/-- `ctrl` is the memory instructions on which an earlier branch or indirect jump depends. -/
theorem mem_ctrl_depsBefore_iff (hE : ∀ p, E.inst h p = streamAt l p) (hp : p ≤ l.length) :
    i ∈ (depsBefore l p).ctrl ↔ MemoryAt l i ∧
      ∃ k c r, i < k ∧ k < p ∧ streamAt l k = some c ∧ c.listing.control = true ∧ E.depends h i k r := by
  induction p with
  | zero => simp [depsBefore_zero, DepState.start]
  | succ p ih =>
    obtain ⟨d, hd⟩ := streamAt_some (l := l) (p := p) (by omega)
    rw [depsBefore_succ hd, DepState.mem_ctrl_walk, ih (by omega)]
    constructor
    · rintro (⟨hc, u, hu, hi⟩ | ⟨hm, k, c, r, h1, h2, hk⟩)
      · obtain ⟨hm, s, hs⟩ := (mem_depsBefore_iff hE hd hu).1 hi
        exact ⟨hm, p, d, u, hs.lt, by omega, hd, hc, s, hs⟩
      · exact ⟨hm, k, c, r, h1, by omega, hk⟩
    · rintro ⟨hm, k, c, r, h1, h2, hc, hctrl, s, hs⟩
      rcases Nat.lt_succ_iff_lt_or_eq.1 h2 with h2 | rfl
      · exact .inr ⟨hm, k, c, r, h1, h2, hc, hctrl, s, hs⟩
      · obtain rfl := Option.some.inj (hc.symm.trans hd)
        obtain ⟨n, hn, hr⟩ := hs.source
        obtain rfl := Option.some.inj (((hE k).symm.trans hn).symm.trans hd)
        exact .inl ⟨hctrl, r, hr, (mem_depsBefore_iff hE hd hr).2 ⟨hm, s, hs⟩⟩

/-- Settles O52: the walk keeps what is carried, and carrying is the relation of R73. -/
theorem walkComputesDependencies : Obligations.WalkComputesDependencies := by
  intro E h l hE j n hn
  exact ⟨fun r i hr => (mem_depsBefore_iff hE hn hr).trans and_comm,
    fun i => mem_ctrl_depsBefore_iff hE (streamAt_lt hn).le⟩

end Sys2Proof.Machine
end

section
/-! SUPPORT. What legality gives, rule by rule: preserved program order and the axioms (20_memory.md R80 to R97), coherence per
byte (R111, R112), and reading in order with one hart (R114). -/

namespace Sys2Proof.Machine

open Sys2Proof.Claims

variable {E : Execution} {gmo : Event → Event → Prop} {a b i m o s t r w : MemOp} {e f : Event} {x : Nat}

/-! ### The order of events -/

namespace Execution.LegalWith

theorem asymm (L : E.LegalWith gmo) (e f : Event) (he : E.event e) (hf : E.event f) (h : gmo e f) : ¬ gmo f e :=
  fun h' => L.order.irrefl e he (L.order.trans e f e he hf he h h')

/-- Preserved program order from one of its rules. -/
theorem ordered (L : E.LegalWith gmo) (ha : E.ops a) (hb : E.ops b) (hpo : po a b) (hra : a.region = .main)
    (hrb : b.region = .main) (h : ppo1 a b ∨ E.ppo2 gmo a b ∨ E.ppo3 gmo a b ∨ E.ppo4 a b ∨ ppo5 a b ∨ ppo6 a b ∨ ppo7 a b ∨
      E.ppo8 a b ∨ E.ppo9 a b ∨ E.ppo10 a b ∨ E.ppo11 a b ∨ E.ppo12 gmo a b ∨ E.ppo13 a b) : gmo (.op a) (.op b) :=
  L.preserved a b ha hb ⟨hpo, hra, hrb, h⟩

/-- Rule 1 (R81): an access, and a later store to one of its bytes. -/
theorem before_store (L : E.LegalWith gmo) (hmain : AllMain E) (ha : E.ops a) (hs : E.ops s) (hst : s.isStore = true)
    (hax : a.has x) (hsx : s.has x) (hpo : po a s) : gmo (.op a) (.op s) :=
  L.ordered ha hs hpo (hmain a ha) (hmain s hs) (.inl ⟨hst, x, hax, hsx⟩)

/-! ### Which store a load returns -/

/-- A store of the hart before a load, to a byte of it, is the one it returns or precedes it. -/
theorem own_store (hs : E.ops s) (hst : s.isStore = true) (hsx : s.has x) (hpo : po s i) (h : E.rf gmo e i x) :
    e = .op s ∨ gmo (.op s) e :=
  (h.2 (.op s) ⟨hs, ⟨hst, hsx⟩, .inr hpo⟩).imp Eq.symm id

/-- A load returns no store that follows it in program order, nor one after that in the global memory order (R112). -/
theorem no_later_store (L : E.LegalWith gmo) (hmain : AllMain E) (hi : E.ops i) (hix : i.has x) (hs : E.ops s)
    (hst : s.isStore = true) (hsx : s.has x) (hpo : po i s) (h : E.rf gmo e i x) : e ≠ .op s ∧ ¬ gmo (.op s) e := by
  obtain ⟨⟨he, hw, hc⟩, -⟩ := h
  have his : gmo (.op i) (.op s) := L.before_store hmain hi hs hst hix hsx hpo
  have not_before (hes : gmo (.op s) e) (hei : gmo e (.op i)) : False :=
    L.asymm (.op i) (.op s) hi hs his (L.order.trans (.op s) e (.op i) hs he hi hes hei)
  refine ⟨?_, fun hse => ?_⟩
  · rintro rfl
    rcases hc with hc | hc
    · exact L.asymm (.op i) (.op s) hi hs his hc
    · exact absurd (hpo.2.trans hc.2) (lt_irrefl _)
  · rcases hc with hc | hc
    · exact not_before hse hc
    · cases e with
      | init y => exact hc
      | op o => exact L.asymm (.op s) (.op o) hs he hse (L.before_store hmain he hs hst hw.2 hsx
          ⟨hc.1.trans hpo.1, hc.2.trans hpo.2⟩)

/-- Of two loads of a hart, the later one returns the same store or a later one (R112). -/
theorem loads_in_order (L : E.LegalWith gmo) (hmain : AllMain E) (ha : E.ops a) (hb : E.ops b) (hla : a.isLoad = true)
    (hlb : b.isLoad = true) (hax : a.has x) (hbx : b.has x) (hpo : po a b) (he : E.rf gmo e a x) (hf : E.rf gmo f b x) :
    f = e ∨ gmo e f := by
  have hee : E.event e := he.1.1
  have hff : E.event f := hf.1.1
  by_cases hm : ∃ m, E.ops m ∧ m.isStore = true ∧ m.has x ∧ po a m ∧ po m b
  · obtain ⟨m, hm, hst, hmx, ham, hmb⟩ := hm
    obtain ⟨hne, hnot⟩ := L.no_later_store hmain ha hax hm hst hmx ham he
    have hem : gmo e (.op m) := ((L.order.total e (.op m) hee hm).resolve_left hne).resolve_right hnot
    rcases own_store hm hst hmx hmb hf with rfl | hmf
    · exact .inr hem
    · exact .inr (L.order.trans e (.op m) f hee hm hff hem hmf)
  · by_cases hef : e = f
    · exact .inl hef.symm
    · have hab : gmo (.op a) (.op b) :=
        L.ordered ha hb hpo (hmain a ha) (hmain b hb) (.inr (.inl ⟨hla, hlb, x, hax, hbx, hm, e, f, he, hf, hef⟩))
      have hcand : E.cand gmo b x e := by
        refine ⟨hee, he.1.2.1, ?_⟩
        rcases he.1.2.2 with hc | hc
        · exact .inl (L.order.trans e (.op a) (.op b) hee ha hb hc hab)
        · cases e with
          | init y => exact hc.elim
          | op o => exact .inr ⟨hc.1.trans hpo.1, hc.2.trans hpo.2⟩
      exact (hf.2 e hcand).imp Eq.symm id

end Execution.LegalWith

/-- Settles O47: the store returned is the latest of those that precede the load, and rules 1 and 2 put one hart's accesses to a
byte in order. -/
theorem perByteCoherence : Obligations.PerByteCoherence := by
  intro E gmo x L
  refine ⟨fun s i hs hst hsx hi hl hix hpo => ?_, fun hmain => ⟨fun s t hs ht _ htt hsx htx hpo => ?_,
    fun i s e hi _ hix hs hst hsx hpo h => L.no_later_store hmain hi hix hs hst hsx hpo h,
    fun a b e f ha hb hla hlb hax hbx hpo he hf => L.loads_in_order hmain ha hb hla hlb hax hbx hpo he hf⟩⟩
  · obtain ⟨e, he, hv⟩ := L.loadValue i hi hl x hix
    exact ⟨e, he.1.1, he.1.2.1, Execution.LegalWith.own_store hs hst hsx hpo he, he, hv⟩
  · exact L.before_store hmain hs ht htt hsx htx hpo

/-! ### One hart -/

/-- With one hart, two operations on one byte are the same or in program order. -/
theorem po_total {h : Nat} (hdis : DisjointParts E) (hone : ∀ o, E.ops o → o.hart = h) (ha : E.ops a) (hb : E.ops b)
    (hax : a.has x) (hbx : b.has x) : a = b ∨ po a b ∨ po b a := by
  have hh : a.hart = b.hart := (hone a ha).trans (hone b hb).symm
  rcases lt_trichotomy a.inst b.inst with hlt | heq | hlt
  · exact .inr (.inl ⟨hh, hlt⟩)
  · exact .inl (hdis a b x ha hb hh heq hax hbx)
  · exact .inr (.inr ⟨hh.symm, hlt⟩)

/-- A store that a load returns precedes it in program order. -/
theorem Execution.LegalWith.rf_po {h : Nat} (L : E.LegalWith gmo) (hmain : AllMain E) (hdis : DisjointParts E)
    (hone : ∀ o, E.ops o → o.hart = h) (hi : E.ops i) (hix : i.has x) (hr : E.rf gmo (.op s) i x) : po s i := by
  obtain ⟨⟨hs, ⟨hst, hsx⟩, hc⟩, -⟩ := hr
  rcases hc with hc | hc
  · rcases po_total hdis hone hs hi hsx hix with rfl | hpo | hpo
    · exact absurd hc (L.order.irrefl _ hs)
    · exact hpo
    · exact absurd hc (L.asymm (.op i) (.op s) hi hs (L.before_store hmain hi hs hst hix hsx hpo))
  · exact hc

/-- Settles O48: the store returned precedes the load in program order, and so does every store before it. -/
theorem singleHartReadsInOrder : Obligations.SingleHartReadsInOrder := by
  intro E gmo h L hmain hdis hone i x hi hl hix
  obtain ⟨e, he, hv⟩ := L.loadValue i hi hl x hix
  cases e with
  | op s =>
    obtain ⟨hs, ⟨hst, hsx⟩, -⟩ := he.1
    refine .inl ⟨s, hs, hst, hsx, L.rf_po hmain hdis hone hi hix he, fun s' hs' hst' hsx' hpo => ?_, hv⟩
    rcases Execution.LegalWith.own_store hs' hst' hsx' hpo he with heq | hlt
    · exact .inl (Event.op.inj heq).symm
    · rcases po_total hdis hone hs' hs hsx' hsx with heq | hpo' | hpo'
      · exact .inl heq
      · exact .inr hpo'
      · exact absurd hlt (L.asymm (.op s) (.op s') hs hs' (L.before_store hmain hs hs' hst' hsx hsx' hpo'))
  | init y =>
    obtain ⟨hy, rfl, -⟩ := he.1
    refine .inr ⟨fun s hs hst hsx hpo => ?_, hv⟩
    rcases Execution.LegalWith.own_store hs hst hsx hpo he with heq | hlt
    · cases heq
    · exact L.asymm (.init y) (.op s) hy hs (L.initFirst _ s hy hs) hlt

/-! ### FENCE and annotations -/

theorem isTso_iff {fm pred succ : BitVec 4} {rs1 rd : Reg} :
    isTso fm pred succ rs1 rd = true ↔ fm = 8 ∧ pred = 3 ∧ succ = 3 ∧ rs1 = 0 ∧ rd = 0 := by
  simp [isTso]

theorem inFenceSet_iff {set : BitVec 4} : inFenceSet set o = true ↔
    (o.isLoad = true ∧ set.getLsbD 1 = true) ∨ (o.isStore = true ∧ set.getLsbD 0 = true) := by
  simp [inFenceSet]

theorem acquire_iff {an : Annot} : an.acquire = true ↔ an.acqRCpc = true ∨ an.acqRCsc = true := by simp [Annot.acquire]

theorem release_iff {an : Annot} : an.release = true ↔ an.relRCpc = true ∨ an.relRCsc = true := by simp [Annot.release]

theorem rcsc_iff {an : Annot} : an.rcsc = true ↔ an.acqRCsc = true ∨ an.relRCsc = true := by simp [Annot.rcsc]

/-- Settles O49: what a FENCE orders, read off its fields, and rules 4 to 7. -/
theorem synchronisationOrders : Obligations.SynchronisationOrders := by
  refine ⟨fun a b fm pred succ rs1 rd tso htso => ⟨fun ht => ?_, fun ht => ?_⟩, fun i a b hi => ?_,
    fun E gmo a b L ha hb hpo hra hrb => ⟨fun k n h1 h2 hn hf => ?_, fun h => ?_, fun h => ?_, fun h1 h2 => ?_⟩⟩
  · rw [htso, ← isTso_iff] at ht
    simp [fenceOrders, ht]
  · rw [htso, ← isTso_iff] at ht
    rw [fenceOrders, if_neg ht, Bool.and_eq_true, inFenceSet_iff, inFenceSet_iff]
  · cases i
    case fence => exact absurd rfl (hi _ _ _ _ _)
    all_goals rfl
  · have h : E.ppo4 a b := ⟨k, n, h1, h2, hn, hf⟩
    exact L.ordered ha hb hpo hra hrb (by simp only [h, true_or, or_true])
  · have h : ppo5 a b := acquire_iff.2 h
    exact L.ordered ha hb hpo hra hrb (by simp only [h, true_or, or_true])
  · have h : ppo6 a b := release_iff.2 h
    exact L.ordered ha hb hpo hra hrb (by simp only [h, true_or, or_true])
  · have h : ppo7 a b := ⟨rcsc_iff.2 h1, rcsc_iff.2 h2⟩
    exact L.ordered ha hb hpo hra hrb (by simp only [h, true_or, or_true])

/-! ### Pairing, dependencies and atomicity -/

/-- An instruction that is neither LR nor SC has no part in pairing. -/
theorem role_none_of {n : Instance} (h : ∀ rd rs2 rs1 aq rl, n.instr ≠ .lrW rd rs1 aq rl ∧ n.instr ≠ .lrD rd rs1 aq rl ∧
    n.instr ≠ .scW rd rs2 rs1 aq rl ∧ n.instr ≠ .scD rd rs2 rs1 aq rl) : n.listing.role = .none := by
  obtain ⟨i, ok⟩ := n
  cases i
  case lrW rd rs1 aq rl => exact absurd rfl (h rd 0 rs1 aq rl).1
  case lrD rd rs1 aq rl => exact absurd rfl (h rd 0 rs1 aq rl).2.1
  case scW rd rs2 rs1 aq rl => exact absurd rfl (h rd rs2 rs1 aq rl).2.2.1
  case scD rd rs2 rs1 aq rl => exact absurd rfl (h rd rs2 rs1 aq rl).2.2.2
  all_goals rfl

/-- The load of an LR and the store of the SC paired with it are a paired load and store (R59). -/
theorem pairedOps_of_lrSc (h : PairedLrSc E a b) : E.pairedOps a b := by
  obtain ⟨hl, hs, ⟨hh, hlt⟩, ⟨m, rd, rs1, aq, rl, hm, hlr⟩, ⟨n, rd', rs2, rs1', aq', rl', hn, hsc⟩, hbetween⟩ := h
  refine ⟨hl, hs, hh, hlt, m, n, hm, hn, ?_, ?_, fun k c h1 h2 hc => role_none_of (hbetween k c h1 h2 hc)⟩
  · rcases hlr with h | h <;> simp [Instance.listing, h, Instr.listing, Listing.lr]
  · rcases hsc with h | h <;> simp [Instance.listing, h, Instr.listing, Listing.sc]

/-- Settles O50: rules 3 and 8 to 13, and atomicity of the pair. -/
theorem pairsDependenciesAndAtomicity : Obligations.PairsDependenciesAndAtomicity := by
  intro E gmo L
  refine ⟨fun a b ha hb hpo hra hrb => ?_, fun r w x e hr hw hp har haw hrx he => ?_⟩
  · have rule {p : Prop} (h : p → E.ppo3 gmo a b ∨ E.ppo8 a b ∨ E.ppo9 a b ∨ E.ppo10 a b ∨ E.ppo11 a b ∨ E.ppo12 gmo a b ∨
        E.ppo13 a b) (hp : p) : gmo (.op a) (.op b) :=
      L.ordered ha hb hpo hra hrb (by rcases h hp with h | h | h | h | h | h | h <;> simp only [h, true_or, or_true])
    refine ⟨fun h1 h2 h3 => rule .inl ⟨h1, h2, h3⟩, rule fun h => .inr (.inl (pairedOps_of_lrSc h)),
      rule fun h => .inr (.inr (.inl h)), rule fun h => .inr (.inr (.inr (.inl h))),
      fun h1 => rule fun h => .inr (.inr (.inr (.inr (.inl ⟨h1, h⟩)))), fun h1 => rule fun h => ?_,
      fun h1 => rule fun h => .inr (.inr (.inr (.inr (.inr (.inr ⟨h1, h⟩)))))⟩
    obtain ⟨m, x, hm, hst, ham, hmb, hd, hx, hr⟩ := h
    exact .inr (.inr (.inr (.inr (.inr (.inl ⟨h1, m, hm, hst, ham, hmb, hd, x, hx, hr⟩)))))
  · obtain ⟨hew, hno⟩ := L.atomicity r w hr hw (pairedOps_of_lrSc hp) (aligned_iff.2 har) (aligned_iff.2 haw) x hrx e he
    exact ⟨hew, fun t ht hst htx hh ⟨h1, h2⟩ => hno ⟨t, ht, hst, htx, hh, h1, h2⟩⟩

end Sys2Proof.Machine
end

section
/-! SUPPORT. The bytes of values and of instruction words, and the bytes a load returns (20_memory.md R98, R100, R114). -/

namespace Sys2Proof.Machine

open Sys2Proof.Claims

variable {s : State}

/-! ### Bytes of values -/

/-- Byte k of a value is its bits 8k+7..8k. -/
theorem bytesOf_getElem? {n k : Nat} (w : Word) (h : k < n) : (bytesOf n w)[k]? = some (w.extractLsb' (8 * k) 8) := by
  rw [bytesOf_get n k w h]
  rfl

/-- The bytes of a word, least significant first, make the word. -/
theorem wordOfBytes_extract (w : BitVec 32) :
    wordOfBytes (w.extractLsb' 0 8) (w.extractLsb' 8 8) (w.extractLsb' 16 8) (w.extractLsb' 24 8) = w := by
  apply BitVec.eq_of_toNat_eq
  have := w.isLt
  simp only [wordOfBytes, append_toNat, extract_toNat]
  omega

variable {x : Xlen} {e : Ext} {b0 b1 b2 b3 : Byte} {rest : List Byte}

theorem decodeBytes_of_ok {i : Instr} {w : BitVec 32} (hw : wordOfBytes b0 b1 b2 b3 = w) (h : decode x e w = .ok i) :
    decodeBytes x e (b0 :: b1 :: b2 :: b3 :: rest) = .ok (i, rest) := by simp only [decodeBytes, hw, h]

theorem decodeBytes_of_error {d : DecodeError} {w : BitVec 32} (hw : wordOfBytes b0 b1 b2 b3 = w)
    (h : decode x e w = .error d) : decodeBytes x e (b0 :: b1 :: b2 :: b3 :: rest) = .error d := by
  simp only [decodeBytes, hw, h]

/-- Settles O4: bytes of a value by `bytesOf_getElem?`, in memory by what reading after writing gives. -/
theorem littleEndianBytes : Obligations.LittleEndianBytes := by
  refine ⟨fun n k w _ hk => bytesOf_getElem? w hk, fun n w hn => wordOf_bytesOf n w hn,
    fun s a n k w d an sc _ hk => ?_, fun x e w rest => ?_, fun i => rfl⟩
  · rw [State.byteAt_memWrite, dif_pos (by rw [bytesOf_length]; omega)]
    apply Option.some.inj
    rw [← List.getElem?_eq_getElem, Nat.add_sub_cancel_left, bytesOf_getElem? w hk]
  · cases hd : decode x e w with
    | ok i => exact decodeBytes_of_ok (wordOfBytes_extract w) hd
    | error d => exact decodeBytes_of_error (wordOfBytes_extract w) hd

/-! ### The bytes a load returns -/

theorem State.loaded_oneHart (h : s.others = []) (a n : Nat) : s.loaded a n = (s.bytesAt a n, s.draws) := if_pos h

theorem State.loaded_severalHarts (h : s.others ≠ []) (a n : Nat) : s.loaded a n = s.draws.takeBytes n := if_neg h

/-- With one hart, each byte a load returns is the one that reading memory gives. -/
theorem State.memRead_oneHart (h : s.others = []) (a : Nat) {n k : Nat} (hk : k < n) :
    (s.memRead a n)[k]? = some (s.byteAt (a + k)) := by
  rw [State.memRead, State.loaded_oneHart h]
  exact s.bytesAt_get a n k hk

/-- Listed draws are taken in order. -/
theorem Draws.takeBytes_listed {d : Draws} (bs rest : List Byte) (h : d.bytes = bs ++ rest) :
    d.takeBytes bs.length = (bs, { d with bytes := rest }) := by
  induction bs generalizing d with
  | nil =>
    obtain ⟨bytes, scs, splits, count⟩ := d
    obtain rfl : bytes = rest := h
    rfl
  | cons b bs ih =>
    have hb : d.byte = (b, { d with bytes := bs ++ rest }) := by simp [Draws.byte, h]
    rw [List.length_cons, Draws.takeBytes, hb, ih rfl]

/-- With no draw listed, the free values at the counter are taken. -/
theorem Draws.takeBytes_free {d : Draws} (n : Nat) (h : d.bytes = []) :
    d.takeBytes n = ((List.range n).map (fun k => Config.drawnByte (d.count + k)), { d with count := d.count + n }) := by
  induction n generalizing d with
  | zero => rfl
  | succ n ih =>
    have hb : d.byte = (Config.drawnByte d.count, { d with count := d.count + 1 }) := by simp [Draws.byte, h]
    rw [Draws.takeBytes, hb, ih (d := { d with count := d.count + 1 }) h, List.range_succ_eq_map]
    simp [Nat.add_comm, Nat.add_left_comm]

/-- Settles O26: the two cases of a load's bytes. -/
theorem loadedBytes : Obligations.LoadedBytes := by
  refine fun s a n => ⟨s.memRead_length a n, fun h k hk => State.memRead_oneHart h a hk, fun h bs rest hd hl => ?_,
    fun h hd => ?_⟩
  · subst hl
    simp [State.memRead, State.loaded_severalHarts h, Draws.takeBytes_listed bs rest hd]
  · simp [State.memRead, State.loaded_severalHarts h, Draws.takeBytes_free n hd]

end Sys2Proof.Machine
end

section
/-! SUPPORT. What stops LR, SC and AMOs, and what an SC that fails does (20_memory.md R56, R63, R104, R107, R108). -/

namespace Sys2Proof.Machine

open Sys2Proof.Claims

variable {s t : State} {i : Instr} {a n : Nat} {k : Result}

/-! ### The stops -/

theorem atomicStop_misaligned (h : a % n ≠ 0) : atomicStop a n = some (.refused .misalignedAtomic) := by
  simp [atomicStop, aligned, h]

theorem atomicStop_aligned (h : a % n = 0) : atomicStop a n = none := atomicStop_eq_none.2 h

theorem State.regionStop_io (h : ∃ k, k < n ∧ regionOf s.params (a + k) = .io) :
    s.regionStop a n = some (.refused .ioRegion) := by
  rw [State.regionStop, if_pos (touchesIo_iff.2 h)]

theorem State.regionStop_inMain (h : InMain s a n) : s.regionStop a n = none := by
  obtain ⟨hm, hs⟩ := h
  rw [size_eq_two_pow] at hs
  exact State.regionStop_eq_none.2 ⟨hm, by exact_mod_cast hs⟩

theorem State.textStop_fetched (h : ¬NotText s a n) : s.textStop a n = some (.fault .storeToText) := by
  rcases hs : s.textStop a n with _ | st
  · exact absurd (State.textStop_eq_none.1 hs) h
  · unfold State.textStop at hs
    split_ifs at hs
    exact hs.symm

/-- An LR is asked for its alignment, then for its bytes. -/
theorem lrStops_of (h : exec i s = orStop (s.lrStop a n) k) : LrStops i s a n := by
  refine ⟨fun ha => ?_, fun ha hio => ?_⟩
  · rw [h, State.lrStop, atomicStop_misaligned ha]
    rfl
  · rw [h, State.lrStop, atomicStop_aligned ha, State.regionStop_io hio]
    rfl

/-- An AMO is asked for fetched text after that. -/
theorem amoStops_of (h : exec i s = orStop (s.amoStop a n) k) : AmoStops i s a n := by
  refine ⟨⟨fun ha => ?_, fun ha hio => ?_⟩, fun ha hm ht => ?_⟩
  · rw [h, State.amoStop, atomicStop_misaligned ha]
    rfl
  · rw [h, State.amoStop, atomicStop_aligned ha, State.regionStop_io hio]
    rfl
  · rw [h, State.amoStop, atomicStop_aligned ha, State.regionStop_inMain hm, State.textStop_fetched ht]
    rfl

theorem scMay_iff : s.scMay a n = true ↔ ∃ l, MaySucceed s a n l := by
  unfold State.scMay MaySucceed
  cases s.hart.lr with
  | none => simp
  | some l => simp

/-- An SC succeeds if it may and the draw says so (R107). -/
theorem scSucceeds_iff : s.scSucceeds a n = true ↔ (∃ l, MaySucceed s a n l) ∧ s.draws.sc.1 = true := by
  rw [State.scSucceeds, Bool.and_eq_true, scMay_iff]

/-- An SC is asked for its alignment always, for its bytes and for text only if it would succeed. -/
theorem scStops_of {rd rs2 rs1 : Reg} {an : Annot} (h : exec i s = s.storeConditional rd rs2 rs1 n an i) :
    ScStops i s (s.atomicAddr rs1) n := by
  refine ⟨fun ha => ?_, fun l ha hl hd => ?_⟩
  · rw [h, State.storeConditional, atomicStop_misaligned ha]
    rfl
  · rw [h, State.storeConditional, atomicStop_aligned ha, if_pos (scSucceeds_iff.2 ⟨⟨l, hl⟩, hd⟩)]
    refine ⟨fun hio => ?_, fun hm ht => ?_⟩
    · rw [State.regionStop_io hio]
      rfl
    · rw [State.regionStop_inMain hm, State.textStop_fetched ht]
      rfl

/-- Settles O31: each row by the stop its meaning asks first. -/
theorem atomicAccessStops : Obligations.AtomicAccessStops := by
  refine fun s rd rs2 rs1 aq rl => ⟨lrStops_of rfl, lrStops_of rfl, scStops_of rfl, scStops_of rfl, ?_, ?_⟩
  · rintro i (rfl | rfl | rfl | rfl | rfl | rfl | rfl | rfl | rfl) <;> exact amoStops_of rfl
  · rintro i (rfl | rfl | rfl | rfl | rfl | rfl | rfl | rfl | rfl) <;> exact amoStops_of rfl

/-! ### An SC that fails -/

/-- Writing x[rd] changes that register only, and not x0. -/
theorem xWritten_writeX (rd : Reg) (v : Word) (h : ∀ r, t.readX r = (s.writeX rd v).readX r) : XWritten s t rd v.toNat := by
  intro r
  rw [ux, h, State.readX_writeX, size_eq_two_pow]
  split_ifs
  · rw [Xlen.trunc_toNat]
    exact_mod_cast rfl
  · rfl

/-- pc + 4 modulo 2^XLEN, as a number. -/
theorem toNat_trunc_nextPc : ((s.xlen.trunc s.nextPc).toNat : Int) = ((s.pc.toNat : Int) + 4) % Claims.size s := by
  rw [Xlen.trunc_toNat, State.nextPc_toNat, Nat.mod_mod, size_eq_two_pow]
  exact_mod_cast rfl

/-- An SC that is not paired, or may not succeed, or draws failure, fails. -/
theorem scFails_of {rd rs2 rs1 : Reg} {an : Annot} (h : exec i s = s.storeConditional rd rs2 rs1 n an i) :
    ScFails i s rd rs1 n := by
  intro ha hno
  have hf : ¬ s.scSucceeds (s.atomicAddr rs1) n = true := by
    rw [scSucceeds_iff]
    rintro ⟨⟨l, hl⟩, hd⟩
    rcases hno with hno | hno
    · exact hno l hl
    · simp [hno] at hd
  refine ⟨s.scFailure rd i, ?_, xWritten_writeX rd 1 fun r => ?_, fun r => ?_, ⟨?_, ?_⟩, ?_, ⟨?_, ?_, ?_⟩, ⟨?_, fun x => ?_⟩, ?_,
    ?pc, ?_, ?logged⟩
  case pc =>
    rw [show (s.scFailure rd i).pc = s.xlen.trunc s.nextPc by simp [State.scFailure, State.pc], toNat_trunc_nextPc]
  case logged => exact ⟨by simp [State.scFailure], by simp [State.scFailure], by simp [State.scFailure],
    by simp [State.scFailure], by simp [State.scFailure], by simp [State.scFailure, State.retireSc, Hart.advance]⟩
  · rw [h, State.storeConditional, atomicStop_aligned (a := s.atomicAddr rs1) ha, if_neg hf]
    rfl
  all_goals simp [State.scFailure, State.readX_writeX]

/-- Settles O29: the failing SC, and its row of the listings. -/
theorem scFailureEffect : Obligations.ScFailureEffect :=
  fun _ _ _ _ _ _ => ⟨scFails_of rfl, fun _ => scFails_of rfl, rfl, rfl, rfl, rfl, rfl, rfl⟩

end Sys2Proof.Machine
end

section
/-! SUPPORT. The rows of the listings: each shape of row, cell by cell as sets of units (20_memory.md R68 to R72, R77, R79). -/

namespace Sys2Proof.Machine

open Sys2Proof.Claims

/-! ### Cells as sets of units -/

/-- The list names exactly the units of the set. -/
def Names (l : List DepUnit) (S : Set DepUnit) : Prop := ∀ u, u ∈ l ↔ u ∈ S

theorem names_nil : Names [] ∅ := fun _ => by simp

theorem Names.append {l m : List DepUnit} {S T : Set DepUnit} (hl : Names l S) (hm : Names m T) : Names (l ++ m) (S ∪ T) :=
  fun u => by rw [List.mem_append, hl, hm, Set.mem_union]

theorem Names.onlyIf {l : List DepUnit} {S : Set DepUnit} (h : Names l S) {b : Bool} {p : Prop} (hb : b = true ↔ p) :
    Names (if b then l else []) (onlyIf p S) := by
  intro u
  rw [show u ∈ Claims.onlyIf p S ↔ p ∧ u ∈ S from Iff.rfl, ← hb, ← h u]
  cases b <;> simp

theorem names_xUnits (r : Reg) : Names (xUnits r) (xu r) := fun u => by
  rw [show u ∈ xu r ↔ r ≠ 0 ∧ u = .x r from Iff.rfl, xUnits]
  split_ifs with h
  · simp [h]
  · simpa using fun _ => h

theorem names_fUnits (r : Reg) : Names (fUnits r) (fu r) := fun _ => List.mem_singleton

theorem names_frmUnits (rm : BitVec 3) : Names (frmUnits rm) (frmIf rm) := fun u => by
  rw [show u ∈ frmIf rm ↔ rm = 7 ∧ u = .frm from Iff.rfl, frmUnits]
  split_ifs with h
  · simp [h]
  · simpa using fun hrm => absurd hrm h

/-- The flags of a mask are those of the cell it stands for. -/
theorem names_accUnits {m c : FlagMask} (hc : m = c) : Names (accUnits m) (flagsOf c) := fun u => by
  subst hc
  rw [show u ∈ flagsOf m ↔ ∃ k : Fin 5, u = .flag k ∧ m.getLsbD k.val = true from Iff.rfl, accUnits, List.mem_filter,
    mem_flagUnits]
  constructor
  · rintro ⟨⟨k, rfl⟩, h⟩
    exact ⟨k, rfl, h⟩
  · rintro ⟨k, rfl, h⟩
    exact ⟨⟨k, rfl⟩, h⟩

/-- Address bits 11:10 are 11 exactly for the CSRs from 0xC00 on. -/
theorem csr_readOnly_iff (a : BitVec 12) : a.extractLsb' 10 2 = 3 ↔ a.toNat / 2 ^ 10 = 3 := by
  rw [← BitVec.toNat_inj, extract_toNat]
  have := a.isLt
  simp
  omega

theorem names_csrUnits (a : BitVec 12) : Names (csrUnits a) (csru a) := fun u => by
  rw [show u ∈ csru a ↔ ((a = 2 ∨ a = 3) ∧ u = .frm) ∨ ((a = 1 ∨ a = 3) ∧ ∃ k, u = .flag k) ∨
    (a ≠ 1 ∧ a ≠ 2 ∧ a ≠ 3 ∧ a.toNat / 2 ^ 10 ≠ 3 ∧ u = .csr a) from Iff.rfl, ← mem_flagUnits, csrUnits]
  have hro := csr_readOnly_iff a
  split_ifs with h1 h2 h3 h4
  · subst h1; simp
  · subst h2; simp
  · subst h3; simp
  · have := hro.1 h4
    simp_all
  · have := mt hro.2 h4
    simp_all

/-! ### Rows -/

variable {ok : Bool} {i : Instr} {l : Listing}

/-- A row, cell by cell. -/
theorem listedAs_of (hl : Instr.listing ok i = l) {r : Row} (ha : Names l.addr r.addr) (hd : Names l.data r.data)
    (ho : Names l.plain r.other) (ht : Names l.dests r.dests) (hc : Names l.acc r.acc)
    (hcarries : ∀ p q, p ∈ l.carriers q ↔ r.carries p q) (hcontrol : l.control = true ↔ r.control)
    (hmemory : l.memory = true ↔ r.memory) (hrole : l.role = r.role) : ListedAs ok i r := by
  subst hl
  exact ⟨fun u => ⟨ha u, hd u, hc u, (((ha.append hd).append ho).append hc) u, (ht.append hc) u⟩, hcarries, hcontrol, hmemory,
    hrole⟩

/-- What a row without a mark carries: its cell into its destinations and flags, and each flag into itself. -/
theorem Listing.mem_carriers_plain (hm : l.mark = .plain) {p q : DepUnit} :
    p ∈ l.carriers q ↔ (p ∈ l.cell ∧ (q ∈ l.dests ∨ q ∈ l.acc)) ∨ (p = q ∧ q ∈ l.acc) := by
  simp only [Listing.carriers, hm, List.mem_append]
  by_cases h1 : q ∈ l.dests <;> by_cases h2 : q ∈ l.acc <;> simp [h1, h2]

/-- A row without a mark, destination or flag carries nothing. -/
theorem Listing.not_carries (hm : l.mark = .plain) (hd : l.dests = []) (ha : l.acc = []) (p q : DepUnit) :
    p ∈ l.carriers q ↔ False := by
  simp [Listing.mem_carriers_plain hm, hd, ha]

variable {srcs dests acc data : List DepUnit} {S D A : Set DepUnit} {rd rs1 rs2 : Reg}

theorem listedAs_compute (hl : Instr.listing ok i = .compute srcs dests acc) (hs : Names srcs S) (hd : Names dests D)
    (ha : Names acc A) : ListedAs ok i (computes S D A) :=
  listedAs_of hl names_nil names_nil hs hd ha (fun p q => by
    rw [Listing.mem_carriers_plain rfl]
    exact or_congr (and_congr (hs p) (or_congr (hd q) (ha q))) (and_congr_right fun _ => ha q)) (by simp [computes, Listing.compute, Listing.empty])
    (by simp [computes, Listing.compute, Listing.empty]) rfl

theorem listedAs_jalr (imm : BitVec 12) :
    ListedAs ok (.jalr rd rs1 imm) { other := xu rs1, dests := xu rd, control := True } :=
  listedAs_of rfl names_nil names_nil (names_xUnits rs1) (names_xUnits rd) names_nil
    (fun _ _ => iff_false_intro (Listing.carriers_dagger rfl)) (iff_of_true rfl trivial) (iff_of_false Bool.false_ne_true not_false) rfl

theorem listedAs_branch (hl : Instr.listing ok i = .branch rs1 rs2) :
    ListedAs ok i { other := xu rs1 ∪ xu rs2, control := True } :=
  listedAs_of hl names_nil names_nil ((names_xUnits rs1).append (names_xUnits rs2)) names_nil names_nil
    (Listing.not_carries rfl rfl rfl) (by simp [Listing.branch]) (by simp [Listing.branch, Listing.empty]) rfl

theorem listedAs_load (hl : Instr.listing ok i = .load rs1 dests) (hd : Names dests D) :
    ListedAs ok i { addr := xu rs1, dests := D, memory := True } :=
  listedAs_of hl (names_xUnits rs1) names_nil names_nil hd names_nil (fun _ _ => iff_false_intro (Listing.carriers_dagger rfl))
    (by simp [Listing.load, Listing.empty]) (by simp [Listing.load]) rfl

theorem listedAs_store (hl : Instr.listing ok i = .store rs1 data) (hd : Names data D) :
    ListedAs ok i { addr := xu rs1, data := D, memory := True } :=
  listedAs_of hl (names_xUnits rs1) hd names_nil names_nil names_nil (Listing.not_carries rfl rfl rfl)
    (by simp [Listing.store, Listing.empty]) (by simp [Listing.store]) rfl

theorem listedAs_lr (hl : Instr.listing ok i = .lr rd rs1) :
    ListedAs ok i { addr := xu rs1, dests := xu rd, memory := True, role := .lr } :=
  listedAs_of hl (names_xUnits rs1) names_nil names_nil (names_xUnits rd) names_nil
    (fun _ _ => iff_false_intro (Listing.carriers_dagger rfl)) (by simp [Listing.lr, Listing.load, Listing.empty])
    (by simp [Listing.lr, Listing.load]) rfl

theorem listedAs_amo (hl : Instr.listing ok i = .amo rd rs2 rs1) :
    ListedAs ok i { addr := xu rs1, data := xu rs2, dests := xu rd, memory := True } :=
  listedAs_of hl (names_xUnits rs1) (names_xUnits rs2) names_nil (names_xUnits rd) names_nil
    (fun _ _ => iff_false_intro (Listing.carriers_dagger rfl)) (by simp [Listing.amo, Listing.empty]) (by simp [Listing.amo]) rfl

theorem listedAs_sc_success (hl : Instr.listing ok i = .sc true rd rs2 rs1) :
    ListedAs ok i { addr := xu rs1, data := xu rs2, dests := xu rd, memory := True, role := .sc } :=
  listedAs_of hl (names_xUnits rs1) (names_xUnits rs2) names_nil (names_xUnits rd) names_nil
    (fun _ _ => iff_false_intro (Listing.carriers_dagger rfl)) (by simp [Listing.sc, Listing.empty]) (by simp [Listing.sc]) rfl

theorem listedAs_sc_failure (hl : Instr.listing ok i = .sc false rd rs2 rs1) :
    ListedAs ok i { addr := xu rs1, data := xu rs2, role := .sc } :=
  listedAs_of hl (names_xUnits rs1) (names_xUnits rs2) names_nil names_nil names_nil
    (fun _ _ => iff_false_intro (Listing.carriers_dagger rfl)) (by simp [Listing.sc, Listing.empty]) (by simp [Listing.sc]) rfl

variable {csr : BitVec 12} {r w : Bool} {R W : Prop}

theorem listedAs_csrReg (hl : Instr.listing ok i = .csrReg rd rs1 csr r w) (hr : r = true ↔ R) (hw : w = true ↔ W) :
    ListedAs ok i (csrRow rd (xu rs1) (csru csr) R W) := by
  have hx := names_xUnits rs1
  have hd := names_xUnits rd
  have hread := (names_csrUnits csr).onlyIf hr
  have hwrite := (names_csrUnits csr).onlyIf hw
  refine listedAs_of hl names_nil names_nil (hx.append hread) (hd.append hwrite) names_nil (fun p q => ?_)
    (by simp [csrRow, Listing.csrReg, Listing.empty]) (by simp [csrRow, Listing.csrReg, Listing.empty]) rfl
  rw [Listing.carriers_note rfl]
  simp only [List.mem_cons, List.not_mem_nil, or_false, exists_eq_or_imp, exists_eq_left]
  exact or_congr (and_congr (hx p) (hwrite q)) (and_congr (hread p) (hd q))

theorem listedAs_csrImm (hl : Instr.listing ok i = .csrImm rd csr r w) (hr : r = true ↔ R) (hw : w = true ↔ W) :
    ListedAs ok i (csrRow rd ∅ (csru csr) R W) := by
  have hd := names_xUnits rd
  have hread := (names_csrUnits csr).onlyIf hr
  have hwrite := (names_csrUnits csr).onlyIf hw
  refine listedAs_of hl names_nil names_nil (names_nil.append hread) (hd.append hwrite) names_nil (fun p q => ?_)
    (by simp [csrRow, Listing.csrImm, Listing.empty]) (by simp [csrRow, Listing.csrImm, Listing.empty]) rfl
  rw [Listing.carriers_note rfl]
  simp only [List.mem_cons, List.not_mem_nil, or_false, exists_eq_left]
  rw [hread p, hd q]
  simp [csrRow]

/-- Instructions with one listing have one row. -/
theorem listedAs_all {is : List Instr} {row : Row} (hrow : ∀ {i}, Instr.listing ok i = l → ListedAs ok i row)
    (h : ∀ i ∈ is, Instr.listing ok i = l) : ∀ i ∈ is, ListedAs ok i row :=
  fun i hi => hrow (h i hi)

/-- Settles O51: every row of the table has one of these shapes. -/
theorem listingRows : Obligations.ListingRows := by
  intro ok rd rs1 rs2 rs3 rm imm imm20 sh5 sh6 off13 off21 csr z fm pred succ aq rl
  have x := names_xUnits
  have f := names_fUnits
  have m := names_frmUnits rm
  have none := names_nil
  refine ⟨listedAs_all (listedAs_compute · none (x rd) none) ?_, listedAs_jalr imm, listedAs_all listedAs_branch ?_,
    listedAs_all (listedAs_load · (x rd)) ?_, listedAs_all (listedAs_load · (f rd)) ?_, listedAs_all (listedAs_store · (x rs2)) ?_,
    listedAs_all (listedAs_store · (f rs2)) ?_, listedAs_all (listedAs_compute · (x rs1) (x rd) none) ?_,
    listedAs_all (listedAs_compute · ((x rs1).append (x rs2)) (x rd) none) ?_, listedAs_all (listedAs_compute · none none none) ?_,
    listedAs_csrReg rfl (by simp) (by simp), listedAs_csrReg rfl (by simp) (by simp), listedAs_csrReg rfl (by simp) (by simp),
    listedAs_csrImm rfl (by simp) (by simp), listedAs_csrImm rfl (by simp) (by simp), listedAs_csrImm rfl (by simp) (by simp),
    listedAs_all listedAs_lr ?_, fun i hi => ⟨listedAs_all listedAs_sc_success ?_ i hi, listedAs_all (listedAs_sc_failure (rd := rd)) ?_ i hi⟩,
    listedAs_all listedAs_amo ?_,
    listedAs_all (listedAs_compute · ((((f rs1).append (f rs2)).append (f rs3)).append m) (f rd) (names_accUnits (m := accMul) rfl)) ?_,
    listedAs_all (listedAs_compute · (((f rs1).append (f rs2)).append m) (f rd) (names_accUnits (m := accSum) rfl)) ?_,
    listedAs_all (listedAs_compute · (((f rs1).append (f rs2)).append m) (f rd) (names_accUnits (m := accMul) rfl)) ?_,
    listedAs_all (listedAs_compute · (((f rs1).append (f rs2)).append m) (f rd) (names_accUnits (m := accDiv) rfl)) ?_,
    listedAs_all (listedAs_compute · ((f rs1).append m) (f rd) (names_accUnits (m := accInt) rfl)) ?_,
    listedAs_all (listedAs_compute · ((f rs1).append m) (x rd) (names_accUnits (m := accInt) rfl)) ?_,
    listedAs_all (listedAs_compute · ((f rs1).append (f rs2)) (f rd) none) ?_,
    listedAs_all (listedAs_compute · ((f rs1).append (f rs2)) (f rd) (names_accUnits (m := accNv) rfl)) ?_,
    listedAs_all (listedAs_compute · ((f rs1).append (f rs2)) (x rd) (names_accUnits (m := accNv) rfl)) ?_,
    listedAs_all (listedAs_compute · (f rs1) (x rd) none) ?_, listedAs_all (listedAs_compute · (x rs1) (f rd) none) ?_,
    listedAs_all (listedAs_compute · ((x rs1).append m) (f rd) (names_accUnits (m := accNx) rfl)) ?_,
    listedAs_compute rfl ((f rs1).append m) (f rd) (names_accUnits (m := accMul) rfl), listedAs_compute rfl (f rs1) (f rd) (names_accUnits (m := accNv) rfl)⟩
  all_goals
    intro i hi
    fin_cases hi <;> rfl

end Sys2Proof.Machine
end

section
/-! SUPPORT. The parts of the order check, each with the relation of the memory model it decides (20_memory.md R53, R59, R74 to
R76, R78, R84). -/

namespace Sys2Proof.Machine

open Sys2Proof.Claims

variable {s : State} {a b o r w : MemOp} {x : Nat}

theorem MemOp.hasB_iff : o.hasB x = true ↔ o.has x := decide_eq_true_iff

theorem MemOp.mem_bytes : x ∈ o.bytes ↔ o.has x := by
  simp only [MemOp.bytes, List.mem_map, List.mem_range, MemOp.has]
  constructor
  · rintro ⟨k, hk, rfl⟩
    omega
  · exact fun ⟨h1, h2⟩ => ⟨x - o.addr, by omega, by omega⟩

theorem MemOp.any_bytes {p : Nat → Bool} : o.bytes.any p = true ↔ ∃ x, o.has x ∧ p x = true := by
  simp only [List.any_eq_true, MemOp.mem_bytes]

theorem poB_iff : poB a b = true ↔ po a b := decide_eq_true_iff

/-- An instruction that gives rise to memory operations stands where a recorded operation is. -/
theorem RecordedOp.memoryAt (ha : RecordedOp s a) : MemoryAt (s.streamOf a.hart) a.inst := ha.2.2

/-- The set of some units holds the recorded operation's instruction if that of b depends on it through one of them. -/
theorem mem_ofAll_depsBefore (ha : RecordedOp s a) (hh : a.hart = b.hart) {n : Instance}
    (hn : streamAt (s.streamOf b.hart) b.inst = some n) {us : List DepUnit} (hus : ∀ u ∈ us, u ∈ n.listing.sources) :
    a.inst ∈ (depsBefore (s.streamOf b.hart) b.inst).ofAll us ↔
      ∃ u ∈ us, s.execution.depends b.hart a.inst b.inst u := by
  rw [DepState.mem_ofAll]
  refine exists_congr fun u => and_congr_right fun hu => ?_
  rw [mem_depsBefore_iff (State.execution_inst b.hart) hn (hus u hu)]
  exact and_iff_right (hh ▸ ha.memoryAt)

theorem Listing.addr_sources (l : Listing) : ∀ u ∈ l.addr, u ∈ l.sources := fun u hu => by
  simp [Listing.sources, Listing.cell, hu]

theorem Listing.data_sources (l : Listing) : ∀ u ∈ l.data, u ∈ l.sources := fun u hu => by
  simp [Listing.sources, Listing.cell, hu]

theorem State.addrDepB_iff (ha : RecordedOp s a) : s.addrDepB a b = true ↔ s.execution.addrDep a b := by
  rw [State.addrDepB, Bool.and_eq_true, decide_eq_true_iff, Execution.addrDep]
  refine and_congr_right fun hh => ?_
  cases hn : streamAt (s.streamOf b.hart) b.inst with
  | none => simp [State.execution_inst, hn]
  | some n =>
    rw [decide_eq_true_iff, mem_ofAll_depsBefore ha hh hn n.listing.addr_sources, State.execution_inst, hn]
    simp

theorem State.dataDepB_iff (ha : RecordedOp s a) : s.dataDepB a b = true ↔ s.execution.dataDep a b := by
  rw [State.dataDepB, Bool.and_eq_true, Bool.and_eq_true, decide_eq_true_iff, and_assoc, Execution.dataDep]
  refine and_congr_right fun hh => and_congr_right fun _ => ?_
  cases hn : streamAt (s.streamOf b.hart) b.inst with
  | none => simp [State.execution_inst, hn]
  | some n =>
    rw [decide_eq_true_iff, mem_ofAll_depsBefore ha hh hn n.listing.data_sources, State.execution_inst, hn]
    simp

theorem State.ctrlDepB_iff (ha : RecordedOp s a) (hb : RecordedOp s b) :
    s.ctrlDepB a b = true ↔ s.execution.ctrlDep a b := by
  obtain ⟨-, -, n, hn, -⟩ := hb
  rw [State.ctrlDepB, Bool.and_eq_true, decide_eq_true_iff, decide_eq_true_iff, Execution.ctrlDep]
  refine and_congr_right fun hh => ?_
  rw [mem_ctrl_depsBefore_iff (State.execution_inst b.hart) (streamAt_lt hn).le]
  simp only [State.execution_inst]
  exact and_iff_right (hh ▸ ha.memoryAt)

/-! ### Pairing -/

/-- The instruction at a position is an LR or an SC. -/
def pairs (l : List Instance) (k : Nat) : Bool :=
  match streamAt l k with
  | some n => n.listing.role != .none
  | none => false

theorem pairedWithB_eq (l : List Instance) (j : Nat) :
    pairedWithB l j = ((List.range j).reverse.find? (pairs l)).bind fun k =>
      (streamAt l k).bind fun n => if n.listing.role = .lr then some k else none := by
  unfold pairedWithB
  change (match (List.range j).reverse.find? (pairs l) with | some k => _ | none => _) = _
  cases (List.range j).reverse.find? (pairs l) with
  | none => rfl
  | some k => cases hk : streamAt l k <;> simp [hk]

/-- The LR found is the nearest LR or SC before the position. -/
theorem pairedWithB_iff {l : List Instance} {j i : Nat} : pairedWithB l j = some i ↔
    i < j ∧ (∃ m, streamAt l i = some m ∧ m.listing.role = .lr) ∧
      ∀ k c, i < k → k < j → streamAt l k = some c → c.listing.role = .none := by
  rw [pairedWithB_eq]
  induction j with
  | zero => simp
  | succ j ih =>
    rw [List.range_succ, List.reverse_append, List.reverse_singleton, List.singleton_append, List.find?_cons]
    cases hp : pairs l j with
    | true =>
      obtain ⟨n, hn, hr⟩ : ∃ n, streamAt l j = some n ∧ n.listing.role ≠ .none := by
        unfold pairs at hp
        split at hp
        · exact ⟨_, ‹_›, by simpa using hp⟩
        · cases hp
      simp only [Option.bind_some, hn, Option.ite_none_right_eq_some, Option.some.injEq]
      constructor
      · rintro ⟨hlr, rfl⟩
        exact ⟨by omega, ⟨n, hn, hlr⟩, fun k c h1 h2 => by omega⟩
      · rintro ⟨hi, ⟨m, hm, hlr⟩, hk⟩
        rcases Nat.lt_succ_iff_lt_or_eq.1 hi with hi | rfl
        · exact absurd (hk j n hi (by omega) hn) hr
        · obtain rfl := Option.some.inj (hm.symm.trans hn)
          exact ⟨hlr, rfl⟩
    | false =>
      have hnone : ∀ c, streamAt l j = some c → c.listing.role = .none := fun c hc => by
        simpa [pairs, hc] using hp
      simp only
      rw [ih]
      constructor
      · rintro ⟨hi, hm, hk⟩
        refine ⟨by omega, hm, fun k c h1 h2 hc => ?_⟩
        rcases Nat.lt_succ_iff_lt_or_eq.1 h2 with h2 | rfl
        · exact hk k c h1 h2 hc
        · exact hnone c hc
      · rintro ⟨hi, ⟨m, hm, hlr⟩, hk⟩
        rcases Nat.lt_succ_iff_lt_or_eq.1 hi with hi | rfl
        · exact ⟨hi, ⟨m, hm, hlr⟩, fun k c h1 h2 => hk k c h1 (by omega)⟩
        · rw [hnone m hm] at hlr
          cases hlr

theorem State.pairedB_iff : s.pairedB r w = true ↔ s.execution.pairedOps r w := by
  rw [State.pairedB, Bool.and_eq_true, Bool.and_eq_true, Bool.and_eq_true, decide_eq_true_iff, and_assoc, and_assoc,
    Execution.pairedOps]
  refine and_congr_right fun _ => and_congr_right fun _ => and_congr_right fun hh => ?_
  simp only [Execution.paired, State.execution_inst, hh]
  cases hn : streamAt (s.streamOf w.hart) w.inst with
  | none => simp
  | some n =>
    rw [Bool.and_eq_true, decide_eq_true_iff, decide_eq_true_iff, pairedWithB_iff]
    constructor
    · rintro ⟨hsc, hlt, ⟨m, hm, hlr⟩, hk⟩
      exact ⟨hlt, m, n, hm, rfl, hlr, hsc, hk⟩
    · rintro ⟨hlt, m, n', hm, hn', hlr, hsc, hk⟩
      obtain rfl := Option.some.inj hn'
      exact ⟨hsc, hlt, ⟨m, hm, hlr⟩, hk⟩

/-! ### Fences -/

theorem State.fencedB_iff : s.fencedB a b = true ↔ s.execution.ppo4 a b := by
  simp only [State.fencedB, List.any_eq_true, List.mem_range, Bool.and_eq_true, decide_eq_true_iff, Execution.ppo4,
    State.execution_inst]
  constructor
  · rintro ⟨k, h2, h1, h⟩
    split at h
    · exact ⟨k, _, h1, h2, ‹_›, h⟩
    · cases h
  · rintro ⟨k, n, h1, h2, hn, h⟩
    exact ⟨k, h2, h1, by simpa [hn] using h⟩

end Sys2Proof.Machine
end

section
/-! SUPPORT. Orders of events from numbers of operations, and listed orders (20_memory.md R51, R99). -/

namespace Sys2Proof.Machine

/-- The events in order: the initial stores by address, then the operations by rank. -/
def rankOrder (rank : MemOp → Nat) : Event → Event → Prop
  | .init x, .init y => x < y
  | .init _, .op _ => True
  | .op _, .init _ => False
  | .op a, .op b => rank a < rank b

variable {E : Execution} {rank : MemOp → Nat}

theorem rankOrder_strict (h : ∀ a b, E.ops a → E.ops b → rank a = rank b → a = b) : E.StrictOrder (rankOrder rank) where
  irrefl e _ := by cases e <;> simp [rankOrder]
  trans e f g _ _ _ := by
    cases e <;> cases f <;> cases g <;> simp only [rankOrder, true_implies, false_implies, implies_true]
    all_goals exact lt_trans
  total e f he hf := by
    cases e with
    | init x => cases f with
      | init y =>
        rcases lt_trichotomy x y with hlt | rfl | hlt
        · exact .inr (.inl hlt)
        · exact .inl rfl
        · exact .inr (.inr hlt)
      | op b => exact .inr (.inl trivial)
    | op a => cases f with
      | init y => exact .inr (.inr trivial)
      | op b =>
        rcases lt_trichotomy (rank a) (rank b) with hlt | heq | hlt
        · exact .inr (.inl hlt)
        · exact .inl (congrArg Event.op (h a b he hf heq))
        · exact .inr (.inr hlt)

variable {α : Type}

/-- A list can be sorted by a relation that is total and transitive on its members. -/
theorem exists_sorted {R : α → α → Prop} {l : List α} (hn : l.Nodup)
    (htotal : ∀ a ∈ l, ∀ b ∈ l, a = b ∨ R a b ∨ R b a)
    (htrans : ∀ a ∈ l, ∀ b ∈ l, ∀ c ∈ l, R a b → R b c → R a c) : ∃ p : List α, p.Perm l ∧ p.Pairwise R := by
  classical
  induction l with
  | nil => exact ⟨[], .nil, .nil⟩
  | cons a l ih =>
    obtain ⟨ha, hl⟩ := List.nodup_cons.1 hn
    obtain ⟨p, hp, hsort⟩ := ih hl (fun b hb c hc => htotal b (.tail _ hb) c (.tail _ hc))
      (fun b hb c hc d hd => htrans b (.tail _ hb) c (.tail _ hc) d (.tail _ hd))
    have hmem {b : α} (hb : b ∈ p) : b ∈ a :: l := .tail _ (hp.subset hb)
    have hafter {b : α} (hb : b ∈ p) (hnot : ¬ R b a) : R a b :=
      ((htotal a (.head _) b (hmem hb)).resolve_left (fun h => ha (h ▸ hp.subset hb))).resolve_right hnot
    refine ⟨p.filter (R · a) ++ a :: p.filter (fun b => ! decide (R b a)), ?_, ?_⟩
    · exact List.perm_middle.trans ((List.filter_append_perm _ p).trans hp |>.cons a)
    · refine List.pairwise_append.2 ⟨hsort.filter _, List.pairwise_cons.2 ⟨fun b hb => ?_, hsort.filter _⟩, fun b hb c hc => ?_⟩
      · obtain ⟨hb, hnot⟩ := List.mem_filter.1 hb
        exact hafter hb (by simpa using hnot)
      · obtain ⟨hb, hba⟩ := List.mem_filter.1 hb
        have hba : R b a := by simpa using hba
        rcases List.mem_cons.1 hc with rfl | hc
        · exact hba
        · obtain ⟨hc, hnot⟩ := List.mem_filter.1 hc
          exact htrans b (hmem hb) a (.head _) c (hmem hc) hba (hafter hc (by simpa using hnot))

/-- Every order of a list is among its orders. -/
theorem mem_orders {l p : List α} (h : p.Perm l) : p ∈ orders l := by
  induction l generalizing p with
  | nil => simp [orders, h.eq_nil]
  | cons a l ih =>
    obtain ⟨p1, p2, rfl⟩ := List.append_of_mem (h.symm.subset (List.mem_cons_self ..))
    have hp : (p1 ++ p2).Perm l := (List.perm_middle.symm.trans h).cons_inv
    simp only [orders, List.mem_flatMap, List.mem_map, List.mem_range]
    exact ⟨p1 ++ p2, ih hp, p1.length, by simp, by simp⟩

/-- Of a list without repetition, the earlier stands before the later. -/
theorem pairwise_before {order : List MemOp} (hn : order.Nodup) : order.Pairwise (fun a b => before order a b = true) := by
  rw [List.pairwise_iff_getElem]
  intro i j hi hj hij
  rw [before, decide_eq_true_iff, hn.idxOf_getElem i hi, hn.idxOf_getElem j hj]
  exact hij

theorem before_total {order : List MemOp} {a b : MemOp} (ha : a ∈ order) :
    a = b ∨ before order a b = true ∨ before order b a = true := by
  simp only [before, decide_eq_true_iff]
  rcases lt_trichotomy (order.idxOf a) (order.idxOf b) with h | h | h
  · exact .inr (.inl h)
  · exact .inl ((List.idxOf_inj ha).1 h)
  · exact .inr (.inr h)

end Sys2Proof.Machine
end

section
/-! SUPPORT. The order check decides whether a finite run is admitted: a listed order passes exactly if it is, after the initial
stores, a global memory order that makes the execution legal (20_memory.md R80 to R98). -/

namespace Sys2Proof.Machine

open Sys2Proof.Claims

variable {s : State} {order : List MemOp} {gmo : Event → Event → Prop} {a b i m o r w : MemOp} {e f : Event} {x : Nat}

/-- The list has the operations of the history, in the global memory order, which is a strict order with the initial stores
first. -/
structure Lists (s : State) (order : List MemOp) (gmo : Event → Event → Prop) : Prop where
  mem : ∀ o, o ∈ order ↔ o ∈ s.history
  nodup : order.Nodup
  strict : s.execution.StrictOrder gmo
  initFirst : ∀ x o, s.execution.main x → o ∈ s.history → gmo (.init x) (.op o)
  before : ∀ a ∈ s.history, ∀ b ∈ s.history, before order a b = true ↔ gmo (.op a) (.op b)

/-- The event of a store found, or the initial store of the byte. -/
def storeEvent (x : Nat) (o : Option MemOp) : Event :=
  match o with
  | some o => .op o
  | none => .init x

theorem storeEvent_inj {o p : Option MemOp} : storeEvent x o = storeEvent x p ↔ o = p := by
  cases o <;> cases p <;> simp [storeEvent]

theorem storeEvent_eq_op {p : Option MemOp} : Event.op o = storeEvent x p ↔ p = some o := by
  cases p <;> simp [storeEvent, eq_comm]

/-- The operations W(i, x) is chosen from. -/
def candidates (order : List MemOp) (i : MemOp) (x : Nat) : List MemOp :=
  order.filter (fun o => o.isStore && o.hasB x && (before order o i || poB o i))

theorem latest_eq : latest order i x = (candidates order i x).getLast? := rfl

/-- A load returns one store only. -/
theorem rf_unique {E : Execution} (hs : E.StrictOrder gmo) (he : E.rf gmo e i x) (hf : E.rf gmo f i x) : e = f := by
  rcases he.2 f hf.1 with h | h
  · exact h.symm
  · rcases hf.2 e he.1 with h' | h'
    · exact h'
    · exact absurd (hs.trans e f e he.1.1 hf.1.1 he.1.1 h' h) (hs.irrefl e he.1.1)

section Listed

variable (hrec : Recorded s) (L : Lists s order gmo)

include hrec in
theorem recordedOp_of_mem (h : o ∈ s.history) : RecordedOp s o := (recorded_iff.1 hrec).2.2 o h

include L in
theorem mem_candidates (hi : i ∈ s.history) : o ∈ candidates order i x ↔ s.execution.cand gmo i x (.op o) := by
  rw [candidates, List.mem_filter, L.mem, Bool.and_eq_true, Bool.and_eq_true, Bool.or_eq_true, MemOp.hasB_iff, poB_iff]
  refine and_congr_right fun ho => and_congr_right fun _ => ?_
  rw [L.before o ho i hi]
  rfl

include L in
/-- The last of the candidates is after the others. -/
theorem candidates_last (ho : latest order i x = some o) {c : MemOp} (hc : c ∈ candidates order i x) :
    c = o ∨ gmo (.op c) (.op o) := by
  obtain ⟨l, hl⟩ := List.getLast?_eq_some_iff.1 (latest_eq.symm.trans ho)
  have hsub {c : MemOp} (hc : c ∈ candidates order i x) : c ∈ s.history := (L.mem c).1 (List.mem_filter.1 hc).1
  have hsort : (candidates order i x).Pairwise (fun a b => before order a b = true) := (pairwise_before L.nodup).filter _
  have hmem : o ∈ candidates order i x := hl ▸ by simp
  rw [hl] at hc hsort
  rcases List.mem_append.1 hc with hc | hc
  · have := (List.pairwise_append.1 hsort).2.2 c hc o (by simp)
    exact .inr ((L.before c (hsub (hl ▸ by simp [hc])) o (hsub hmem)).1 this)
  · exact .inl (List.mem_singleton.1 hc)

include hrec L in
/-- `latest` finds the store that a load returns. -/
theorem rf_latest (hi : i ∈ s.history) (hx : i.has x) :
    s.execution.rf gmo (storeEvent x (latest order i x)) i x := by
  have hmain : s.execution.main x := (recordedOp_of_mem hrec hi).2.1 x hx
  cases ho : latest order i x with
  | none =>
    have hnil : candidates order i x = [] := List.getLast?_eq_none_iff.1 (latest_eq.symm.trans ho)
    refine ⟨⟨hmain, rfl, .inl (L.initFirst x i hmain hi)⟩, fun c hc => ?_⟩
    cases c with
    | init y =>
      obtain ⟨-, rfl, -⟩ := hc
      exact .inl rfl
    | op c => exact absurd ((mem_candidates L hi).2 hc) (by simp [hnil])
  | some o =>
    have hmem : o ∈ candidates order i x := List.mem_of_getLast? (latest_eq.symm.trans ho)
    have hcand := (mem_candidates L hi).1 hmem
    refine ⟨hcand, fun c hc => ?_⟩
    cases c with
    | init y => exact .inr (L.initFirst y o hc.1 hcand.1)
    | op c => exact (candidates_last L ho ((mem_candidates L hi).2 hc)).imp (congrArg Event.op) id

include hrec L in
theorem rf_iff (hi : i ∈ s.history) (hx : i.has x) :
    s.execution.rf gmo e i x ↔ e = storeEvent x (latest order i x) :=
  ⟨fun h => rf_unique L.strict h (rf_latest hrec L hi hx), fun h => h ▸ rf_latest hrec L hi hx⟩

/-! ### Rules and axioms, one by one -/

theorem ppo1B_iff : (b.isStore && a.bytes.any (fun x => b.hasB x)) = true ↔ ppo1 a b := by
  simp only [Bool.and_eq_true, MemOp.any_bytes, MemOp.hasB_iff, ppo1]

include L in
theorem any_order {p : MemOp → Bool} : order.any p = true ↔ ∃ m, s.execution.ops m ∧ p m = true := by
  simp only [List.any_eq_true, L.mem]
  rfl

include hrec L in
theorem ppo2B_iff (ha : a ∈ s.history) (hb : b ∈ s.history) :
    (a.isLoad && b.isLoad && a.bytes.any (fun x => b.hasB x &&
      !order.any (fun m => m.isStore && m.hasB x && poB a m && poB m b) && decide (latest order a x ≠ latest order b x))) = true ↔
    s.execution.ppo2 gmo a b := by
  simp only [Bool.and_eq_true, MemOp.any_bytes, MemOp.hasB_iff, Bool.not_eq_true', ← Bool.not_eq_true, any_order L, poB_iff,
    decide_eq_true_iff, Execution.ppo2, and_assoc]
  refine and_congr_right fun _ => and_congr_right fun _ => exists_congr fun x => and_congr_right fun hax =>
    and_congr_right fun hbx => and_congr_right fun _ => ?_
  simp only [rf_iff hrec L ha hax, rf_iff hrec L hb hbx, exists_and_left, exists_eq_left]
  exact storeEvent_inj.not.symm

include hrec L in
theorem returns_iff (hb : b ∈ s.history) :
    (∃ x, b.has x ∧ latest order b x = some m) ↔ ∃ x, b.has x ∧ s.execution.rf gmo (.op m) b x :=
  exists_congr fun x => and_congr_right fun hx => by rw [rf_iff hrec L hb hx, storeEvent_eq_op]

include hrec L in
theorem ppo3B_iff (hb : b ∈ s.history) :
    (a.fromAMOorSC && b.isLoad && b.bytes.any (fun x => decide (latest order b x = some a))) = true ↔
    s.execution.ppo3 gmo a b := by
  simp only [Bool.and_eq_true, MemOp.any_bytes, decide_eq_true_iff, returns_iff hrec L hb, Execution.ppo3, and_assoc]

include hrec in
theorem ppo11B_iff (ha : a ∈ s.history) (hb : b ∈ s.history) :
    (b.isStore && s.ctrlDepB a b) = true ↔ s.execution.ppo11 a b := by
  rw [Bool.and_eq_true, State.ctrlDepB_iff (recordedOp_of_mem hrec ha) (recordedOp_of_mem hrec hb), Execution.ppo11]

include hrec L in
theorem ppo12B_iff (ha : a ∈ s.history) (hb : b ∈ s.history) :
    (b.isLoad && order.any (fun m => m.isStore && poB a m && poB m b && (s.addrDepB a m || s.dataDepB a m) &&
      b.bytes.any (fun x => decide (latest order b x = some m)))) = true ↔ s.execution.ppo12 gmo a b := by
  simp only [Bool.and_eq_true, Bool.or_eq_true, any_order L, poB_iff, State.addrDepB_iff (recordedOp_of_mem hrec ha),
    State.dataDepB_iff (recordedOp_of_mem hrec ha), MemOp.any_bytes, decide_eq_true_iff, returns_iff hrec L hb,
    Execution.ppo12, and_assoc]

include hrec L in
theorem ppo13B_iff (ha : a ∈ s.history) :
    (b.isStore && order.any (fun m => poB a m && poB m b && s.addrDepB a m)) = true ↔ s.execution.ppo13 a b := by
  simp only [Bool.and_eq_true, any_order L, poB_iff, State.addrDepB_iff (recordedOp_of_mem hrec ha), Execution.ppo13, and_assoc]

include hrec L in
/-- The check of preserved program order. -/
theorem ppoB_iff (ha : a ∈ s.history) (hb : b ∈ s.history) : s.ppoB order a b = true ↔ s.execution.ppo gmo a b := by
  have ra := recordedOp_of_mem hrec ha
  rw [State.ppoB, Bool.and_eq_true, Bool.and_eq_true, Bool.and_eq_true, poB_iff, decide_eq_true_iff, decide_eq_true_iff,
    and_assoc, and_assoc, Execution.ppo]
  refine and_congr_right fun _ => and_congr_right fun _ => and_congr_right fun _ => ?_
  simp only [Bool.or_eq_true, or_assoc]
  refine or_congr ppo1B_iff (or_congr (ppo2B_iff hrec L ha hb) (or_congr (ppo3B_iff hrec L hb) (or_congr State.fencedB_iff
    (or_congr Iff.rfl (or_congr Iff.rfl (or_congr ?_ (or_congr State.pairedB_iff (or_congr (State.addrDepB_iff ra)
    (or_congr (State.dataDepB_iff ra) (or_congr (ppo11B_iff hrec ha hb) (or_congr (ppo12B_iff hrec L ha hb)
    (ppo13B_iff hrec L ha))))))))))))
  exact Bool.and_eq_true _ _ ▸ Iff.rfl

include hrec L in
/-- The check of load values. -/
theorem loadValueB_iff (hi : i ∈ s.history) :
    s.loadValueB order i = true ↔ ∀ x, i.has x → ∃ e, s.execution.rf gmo e i x ∧ i.returned x = s.execution.written e x := by
  simp only [State.loadValueB, List.all_eq_true, MemOp.mem_bytes]
  refine forall_congr' fun x => forall_congr' fun hx => ?_
  simp only [rf_iff hrec L hi hx, exists_eq_left]
  cases latest order i x <;> exact decide_eq_true_iff

include hrec L in
/-- The check of atomicity. -/
theorem atomicB_iff (hr : r ∈ s.history) (hw : w ∈ s.history) :
    s.atomicB order r w = true ↔ (s.execution.pairedOps r w → aligned r.addr r.len = true → aligned w.addr w.len = true →
      ∀ x, r.has x → ∀ e, s.execution.rf gmo e r x → gmo e (.op w) ∧
        ¬ ∃ t, s.execution.ops t ∧ t.isStore = true ∧ t.has x ∧ t.hart ≠ r.hart ∧ gmo e (.op t) ∧ gmo (.op t) (.op w)) := by
  rw [State.atomicB, Bool.or_eq_true, Bool.not_eq_true', ← Bool.not_eq_true, ← imp_iff_not_or, Bool.and_eq_true,
    Bool.and_eq_true, State.pairedB_iff, and_imp, and_imp, List.all_eq_true]
  refine imp_congr_right fun _ => imp_congr_right fun _ => imp_congr_right fun _ => forall_congr' fun x => ?_
  rw [MemOp.mem_bytes]
  refine imp_congr_right fun hx => ?_
  have hmain : s.execution.main x := (recordedOp_of_mem hrec hr).2.1 x hx
  simp only [rf_iff hrec L hr hx, forall_eq, Bool.and_eq_true, Bool.not_eq_true', ← Bool.not_eq_true, any_order L, MemOp.hasB_iff,
    decide_eq_true_iff, and_assoc]
  have other {e : Event} {p : MemOp → Prop} (hp : ∀ t ∈ s.history, p t ↔ gmo e (.op t)) :
      (∃ t, s.execution.ops t ∧ t.isStore = true ∧ t.has x ∧ t.hart ≠ r.hart ∧ before order t w = true ∧ p t) ↔
      ∃ t, s.execution.ops t ∧ t.isStore = true ∧ t.has x ∧ t.hart ≠ r.hart ∧ gmo e (.op t) ∧ gmo (.op t) (.op w) :=
    exists_congr fun t => and_congr_right fun ht => and_congr_right fun _ => and_congr_right fun _ => and_congr_right fun _ => by
      rw [L.before t ht w hw, hp t ht, and_comm]
  cases ho : latest order r x with
  | none =>
    exact and_congr (iff_of_true rfl (L.initFirst x w hmain hw))
      (other fun t ht => iff_of_true rfl (L.initFirst x t hmain ht)).not
  | some o =>
    have hmem : o ∈ s.history := (L.mem o).1 (List.mem_filter.1 (List.mem_of_getLast? (latest_eq.symm.trans ho))).1
    exact and_congr (L.before o hmem w hw) (other fun t ht => L.before o hmem t ht).not

include hrec L in
/-- The order passes the check exactly if it makes the execution legal. -/
theorem legalOrderB_iff : s.legalOrderB order = true ↔ s.execution.LegalWith gmo := by
  have hall : order.all (fun o => decide (o ∈ s.history)) = true := by simp [L.mem]
  have hall' : s.history.all (fun o => decide (o ∈ order)) = true := by simp [L.mem]
  have hnodup : decide order.Nodup = true := by simp [L.nodup]
  have ops {P : MemOp → Prop} : (∀ o ∈ order, P o) ↔ ∀ o ∈ s.history, P o := forall_congr' fun o => by rw [L.mem]
  rw [State.legalOrderB, hall, hall', hnodup]
  simp only [Bool.true_and, Bool.and_eq_true, List.all_eq_true, ops, Bool.or_eq_true, Bool.not_eq_true', ← Bool.not_eq_true,
    ← imp_iff_not_or, and_assoc]
  constructor
  · rintro ⟨hppo, hload, hatomic⟩
    exact {
      order := L.strict
      initFirst := L.initFirst
      preserved := fun a b ha hb h => (L.before a ha b hb).1 (hppo a ha b hb ((ppoB_iff hrec L ha hb).2 h))
      loadValue := fun i hi hl => (loadValueB_iff hrec L hi).1 (hload i hi hl)
      atomicity := fun r w hr hw => (atomicB_iff hrec L hr hw).1 (hatomic r hr w hw)
      progress := fun b _ => Set.Finite.subset (List.finite_toSet s.history) fun a ha => ha.1 }
  · intro h
    exact ⟨fun a ha b hb hppo => (L.before a ha b hb).2 (h.preserved a b ha hb ((ppoB_iff hrec L ha hb).1 hppo)),
      fun i hi hl => (loadValueB_iff hrec L hi).2 (h.loadValue i hi hl),
      fun r hr w hw => (atomicB_iff hrec L hr hw).2 (h.atomicity r w hr hw)⟩

end Listed

/-- A listed order that passes the check lists the history once. -/
theorem mem_of_legalOrderB (h : s.legalOrderB order = true) : order.Nodup ∧ ∀ o, o ∈ order ↔ o ∈ s.history := by
  simp only [State.legalOrderB, Bool.and_eq_true, List.all_eq_true, decide_eq_true_iff] at h
  obtain ⟨⟨⟨⟨⟨h1, h2⟩, h3⟩, -⟩, -⟩, -⟩ := h
  exact ⟨h3, fun o => ⟨h1 o, h2 o⟩⟩

/-- The initial stores by address, then the operations as listed. -/
theorem lists_rankOrder (hn : order.Nodup) (hm : ∀ o, o ∈ order ↔ o ∈ s.history) :
    Lists s order (rankOrder fun o => order.idxOf o) where
  mem := hm
  nodup := hn
  strict := rankOrder_strict fun a _ ha _ h => (List.idxOf_inj ((hm a).2 ha)).1 h
  initFirst _ _ _ _ := trivial
  before _ _ _ _ := decide_eq_true_iff

/-- The history sorted by a global memory order. -/
theorem exists_lists (hrec : Recorded s) (h : s.execution.LegalWith gmo) : ∃ order, order.Perm s.history ∧ Lists s order gmo := by
  obtain ⟨hnodup, -, -⟩ := recorded_iff.1 hrec
  obtain ⟨order, hperm, hsort⟩ := exists_sorted (R := fun a b => gmo (.op a) (.op b)) hnodup
    (fun a ha b hb => (h.order.total (.op a) (.op b) ha hb).imp_left Event.op.inj)
    (fun a ha b hb c hc => h.order.trans (.op a) (.op b) (.op c) ha hb hc)
  have hn : order.Nodup := hperm.nodup_iff.2 hnodup
  refine ⟨order, hperm, fun o => hperm.mem_iff, hn, h.order, h.initFirst, fun a ha b hb => ?_⟩
  have sorted {c d : MemOp} (hc : c ∈ s.history) (hd : d ∈ s.history) (hlt : before order c d = true) : gmo (.op c) (.op d) := by
    have hc' := List.getElem?_idxOf (hperm.mem_iff.2 hc)
    have hd' := List.getElem?_idxOf (hperm.mem_iff.2 hd)
    obtain ⟨h1, h2⟩ := List.getElem?_eq_some_iff.1 hc'
    obtain ⟨h3, h4⟩ := List.getElem?_eq_some_iff.1 hd'
    have := List.pairwise_iff_getElem.1 hsort _ _ h1 h3 (of_decide_eq_true hlt)
    rwa [h2, h4] at this
  refine ⟨sorted ha hb, fun hab => ?_⟩
  rcases before_total (b := b) (hperm.mem_iff.2 ha) with rfl | hlt | hlt
  · exact absurd hab (h.order.irrefl _ ha)
  · exact hlt
  · exact absurd (sorted hb ha hlt) (h.asymm (.op a) (.op b) ha hb hab)

/-- Settles O53: an order that passes gives a global memory order, and a global memory order sorts the history. -/
theorem checkerDecidesAdmission : Obligations.CheckerDecidesAdmission := by
  intro s hrec
  rw [State.admittedB, List.any_eq_true]
  constructor
  · rintro ⟨order, -, h⟩
    obtain ⟨hn, hm⟩ := mem_of_legalOrderB h
    exact ⟨_, (legalOrderB_iff hrec (lists_rankOrder hn hm)).1 h⟩
  · rintro ⟨gmo, h⟩
    obtain ⟨order, hperm, L⟩ := exists_lists hrec h
    exact ⟨order, mem_orders hperm, (legalOrderB_iff hrec L).2 h⟩

end Sys2Proof.Machine
end

section
/-! SUPPORT. Operations performed in program order, each load reading the last store before it, make a legal execution, finite or
not (20_memory.md R80 to R97, R114). Lists of operations are newest first. -/

namespace Sys2Proof.Machine

open Sys2Proof.Claims

variable {E F : Execution} {l older newer ops : List MemOp} {a b i o : MemOp} {e : Event} {x : Nat}

/-! ### The last store to a byte -/

/-- The last store to byte x among some operations, or the initial store. -/
def lastEvent (l : List MemOp) (x : Nat) : Event := storeEvent x (l.find? (fun o => o.isStore && o.hasB x))

theorem lastEvent_cons_of_store (h : o.isStore = true) (hx : o.has x) : lastEvent (o :: l) x = .op o := by
  simp [lastEvent, h, MemOp.hasB_iff.2 hx, storeEvent]

theorem lastEvent_cons_of_not (h : ¬(o.isStore = true ∧ o.has x)) : lastEvent (o :: l) x = lastEvent l x := by
  rw [← MemOp.hasB_iff, ← Bool.and_eq_true] at h
  simp only [lastEvent, List.find?_cons, Bool.eq_false_of_not_eq_true h]

theorem lastEvent_append_of_not (h : ∀ o ∈ ops, ¬(o.isStore = true ∧ o.has x)) : lastEvent (ops ++ l) x = lastEvent l x := by
  induction ops with
  | nil => rfl
  | cons o ops ih =>
    rw [List.cons_append, lastEvent_cons_of_not (h o (.head _)), ih (fun p hp => h p (.tail _ hp))]

/-- If every new store to x writes v there, and there is one, the last store to x writes v. -/
theorem written_append_of_store {v : Byte} (hv : ∀ o ∈ ops, o.isStore = true → o.has x → o.stored[x - o.addr]? = some v)
    (h : ∃ o ∈ ops, o.isStore = true ∧ o.has x) : E.written (lastEvent (ops ++ l) x) x = some v := by
  induction ops with
  | nil => simp at h
  | cons o ops ih =>
    rw [List.cons_append]
    by_cases ho : o.isStore = true ∧ o.has x
    · rw [lastEvent_cons_of_store ho.1 ho.2]
      exact hv o (.head _) ho.1 ho.2
    · rw [lastEvent_cons_of_not ho]
      refine ih (fun p hp => hv p (.tail _ hp)) ?_
      obtain ⟨p, hp, h⟩ := h
      rcases List.mem_cons.1 hp with rfl | hp
      · exact absurd h ho
      · exact ⟨p, hp, h⟩

/-- What a store writes depends on the execution through INIT_MEM only. -/
theorem Execution.written_congr (h : E.init = F.init) (e : Event) (x : Nat) : E.written e x = F.written e x := by
  cases e <;> simp [Execution.written, h]

/-! ### Reading in order -/

/-- Every load reads, for each byte, the last store before it. -/
def ReadsBack (E : Execution) : List MemOp → Prop
  | [] => True
  | i :: older =>
    (i.isLoad = true → ∀ x, i.has x → i.returned x = E.written (lastEvent older x) x) ∧ ReadsBack E older

theorem ReadsBack.at (h : ReadsBack E (newer ++ i :: older)) (hl : i.isLoad = true) (hx : i.has x) :
    i.returned x = E.written (lastEvent older x) x := by
  induction newer with
  | nil => exact h.1 hl x hx
  | cons o newer ih => exact ih h.2

theorem ReadsBack.congr (hi : E.init = F.init) (h : ReadsBack E l) : ReadsBack F l := by
  induction l with
  | nil => trivial
  | cons o l ih => exact ⟨fun hl x hx => (h.1 hl x hx).trans (Execution.written_congr hi _ x), ih h.2⟩

/-- New loads of what the last store wrote. -/
theorem ReadsBack.append_loads (h : ReadsBack E l) (hs : ∀ o ∈ ops, o.isStore = false)
    (hr : ∀ o ∈ ops, ∀ x, o.has x → o.returned x = E.written (lastEvent l x) x) : ReadsBack E (ops ++ l) := by
  induction ops with
  | nil => exact h
  | cons o ops ih =>
    refine ⟨fun _ x hx => ?_, ih (fun p hp => hs p (.tail _ hp)) (fun p hp => hr p (.tail _ hp))⟩
    show o.returned x = E.written (lastEvent (ops ++ l) x) x
    rw [lastEvent_append_of_not (fun p hp => by simp [hs p (.tail _ hp)])]
    exact hr o (.head _) x hx

/-- New stores. -/
theorem ReadsBack.append_stores (h : ReadsBack E l) (hs : ∀ o ∈ ops, o.isLoad = false) : ReadsBack E (ops ++ l) := by
  induction ops with
  | nil => exact h
  | cons o ops ih => exact ⟨fun hl => by simp [hs o (.head _)] at hl, ih (fun p hp => hs p (.tail _ hp))⟩

/-- Operations of hart h on main memory, in program order, that read the last store. -/
structure InOrder (E : Execution) (h : Nat) (l : List MemOp) : Prop where
  nodup : l.Nodup
  hart : ∀ o ∈ l, o.hart = h
  main : ∀ o ∈ l, ∀ x, o.has x → E.main x
  inst : l.Pairwise (fun a b => b.inst ≤ a.inst)
  reads : ReadsBack E l

theorem InOrder.congr {h : Nat} (hm : E.main = F.main) (hi : E.init = F.init) (ho : InOrder E h l) : InOrder F h l :=
  ⟨ho.nodup, ho.hart, hm ▸ ho.main, ho.inst, ho.reads.congr hi⟩

/-! ### A growing history -/

/-- How many operations of the list are older. -/
def rankIn (l : List MemOp) (o : MemOp) : Nat := l.length - 1 - l.idxOf o

theorem rankIn_split (hn : (newer ++ o :: older).Nodup) : rankIn (newer ++ o :: older) o = older.length := by
  have ho : o ∉ newer := fun h => (List.nodup_append.1 hn).2.2 o h o (.head _) rfl
  rw [rankIn, List.idxOf_append_of_notMem ho, List.idxOf_cons_self, List.length_append, List.length_cons]
  omega

theorem rankIn_lt_iff (hn : (newer ++ b :: older).Nodup) (ha : a ∈ newer ++ b :: older) :
    rankIn (newer ++ b :: older) a < older.length ↔ a ∈ older := by
  obtain ⟨l1, l2, hl⟩ := List.append_of_mem ha
  have hr : rankIn (newer ++ b :: older) a = l2.length := by rw [hl, rankIn_split (hl ▸ hn)]
  rw [hr]
  rcases List.append_eq_append_iff.1 hl with ⟨c, rfl, hc⟩ | ⟨c, rfl, hc⟩
  · cases c with
    | nil =>
      obtain ⟨rfl, rfl⟩ := List.cons.inj hc
      have : b ∉ older := (List.nodup_cons.1 (List.nodup_append.1 hn).2.1).1
      simpa using this
    | cons d c =>
      obtain ⟨-, rfl⟩ := List.cons.inj hc
      simp
      omega
  · cases c with
    | nil =>
      obtain ⟨rfl, rfl⟩ := List.cons.inj hc
      have : a ∉ l2 := (List.nodup_cons.1 (List.nodup_append.1 (by simpa using hn)).2.1).1
      simpa using this
    | cons d c =>
      obtain ⟨rfl, rfl⟩ := List.cons.inj hc
      refine iff_of_false (by simp; omega) fun h => ?_
      exact (List.nodup_append.1 hn).2.2 a (by simp) a (.tail _ h) rfl

section Growing

variable {H : Nat → List MemOp} (hgrow : ∀ m n, m ≤ n → H m <:+ H n) (hnodup : ∀ n, (H n).Nodup)

open Classical in
/-- How many operations are older, in a history that grows. -/
noncomputable def rankOf (H : Nat → List MemOp) (o : MemOp) : Nat :=
  if h : ∃ n, o ∈ H n then rankIn (H h.choose) o else 0

include hgrow hnodup in
/-- The rank is the number of older operations in any part of the history. -/
theorem rankOf_split {n : Nat} (hs : H n = newer ++ o :: older) : rankOf H o = older.length := by
  have hex : ∃ n, o ∈ H n := ⟨n, by simp [hs]⟩
  have hm : o ∈ H hex.choose := hex.choose_spec
  have hr : rankOf H o = rankIn (H hex.choose) o := dif_pos hex
  obtain ⟨l1, l2, hl⟩ := List.append_of_mem hm
  obtain ⟨c, hc⟩ := hgrow _ _ (le_max_left n hex.choose)
  obtain ⟨d, hd⟩ := hgrow _ _ (le_max_right n hex.choose)
  have hnd := hnodup (max n hex.choose)
  have h1 : H (max n hex.choose) = (c ++ newer) ++ o :: older := by rw [← hc, hs, List.append_assoc]
  have h2 : H (max n hex.choose) = (d ++ l1) ++ o :: l2 := by rw [← hd, hl, List.append_assoc]
  have older_eq := rankIn_split (newer := c ++ newer) (o := o) (older := older) (h1 ▸ hnd)
  have l2_eq := rankIn_split (newer := d ++ l1) (o := o) (older := l2) (h2 ▸ hnd)
  rw [hr, hl, rankIn_split (hl ▸ hnodup _), ← older_eq, ← l2_eq, ← h1, ← h2]

include hgrow hnodup in
/-- The operations of lower rank are those before it in the history. -/
theorem rankOf_lt_iff {n : Nat} (hs : H n = newer ++ b :: older) (ha : ∃ m, a ∈ H m) : rankOf H a < rankOf H b ↔ a ∈ older := by
  obtain ⟨m, hm⟩ := ha
  obtain ⟨c, hc⟩ := hgrow _ _ (le_max_left n m)
  have hnd := hnodup (max n m)
  have ham : a ∈ H (max n m) := (hgrow _ _ (le_max_right n m)).subset hm
  obtain ⟨l1, l2, hl⟩ := List.append_of_mem ham
  have hsplit : H (max n m) = (c ++ newer) ++ b :: older := by rw [← hc, hs, List.append_assoc]
  rw [rankOf_split hgrow hnodup hs, ← rankIn_lt_iff (newer := c ++ newer) (hsplit ▸ hnd) (hsplit ▸ ham), ← hsplit, hl,
    rankIn_split (hl ▸ hnd), rankOf_split hgrow hnodup hl]

include hgrow hnodup in
theorem rankOf_inj (ha : ∃ n, a ∈ H n) (hb : ∃ n, b ∈ H n) (h : rankOf H a = rankOf H b) : a = b := by
  obtain ⟨n, hn⟩ := ha
  obtain ⟨m, hm⟩ := hb
  have han : a ∈ H (max n m) := (hgrow _ _ (le_max_left n m)).subset hn
  have hbn : b ∈ H (max n m) := (hgrow _ _ (le_max_right n m)).subset hm
  obtain ⟨l1, l2, hl⟩ := List.append_of_mem hbn
  have hra := rankOf_lt_iff hgrow hnodup hl ⟨_, han⟩
  rw [hl] at han
  rcases List.mem_append.1 han with h1 | h1
  · obtain ⟨l3, l4, rfl⟩ := List.append_of_mem h1
    have hb := (rankOf_lt_iff hgrow hnodup (older := l4 ++ b :: l2) (b := a) (newer := l3) (by simpa using hl) ⟨m, hm⟩).2 (by simp)
    omega
  · rcases List.mem_cons.1 h1 with rfl | h1
    · rfl
    · have := hra.2 h1
      omega

variable {h : Nat} (hops : ∀ o, E.ops o ↔ ∃ n, o ∈ H n) (hin : ∀ n, InOrder E h (H n))

include hgrow hops hin in
/-- Program order is the order in which the operations were performed. -/
theorem rankOf_of_po (ha : E.ops a) (hb : E.ops b) (hpo : po a b) : rankOf H a < rankOf H b := by
  have hnodup n := (hin n).nodup
  obtain ⟨n, hn⟩ := (hops a).1 ha
  obtain ⟨l1, l2, hl⟩ := List.append_of_mem hn
  rcases lt_trichotomy (rankOf H a) (rankOf H b) with hlt | heq | hlt
  · exact hlt
  · obtain rfl := rankOf_inj hgrow hnodup ((hops a).1 ha) ((hops b).1 hb) heq
    exact absurd hpo.2 (lt_irrefl _)
  · have hmem := (rankOf_lt_iff hgrow hnodup hl ((hops b).1 hb)).1 hlt
    have hsort := (hin n).inst
    rw [hl] at hsort
    have := (List.pairwise_cons.1 (List.pairwise_append.1 hsort).2.1).1 b hmem
    exact absurd hpo.2 (by omega)

include hgrow hops hin in
/-- A store that a load may return was performed before it. -/
theorem rankOrder_of_cand (hi : E.ops i) (hc : E.cand (rankOrder (rankOf H)) i x e) : rankOrder (rankOf H) e (.op i) := by
  obtain ⟨he, -, hc | hc⟩ := hc
  · exact hc
  · cases e with
    | init y => exact hc.elim
    | op o => exact rankOf_of_po hgrow hops hin he hi hc

include hgrow hops hin in
/-- A load returns the last store performed before it. -/
theorem rf_lastEvent {n : Nat} (hs : H n = newer ++ i :: older) (hx : i.has x) :
    E.rf (rankOrder (rankOf H)) (lastEvent older x) i x := by
  have hnodup n := (hin n).nodup
  have hi : E.ops i := (hops i).2 ⟨n, by simp [hs]⟩
  have hmain : E.main x := (hin n).main i (by simp [hs]) x hx
  have before {c : MemOp} (hc : E.cand (rankOrder (rankOf H)) i x (.op c)) : c ∈ older :=
    (rankOf_lt_iff hgrow hnodup hs ((hops c).1 hc.1)).1 (rankOrder_of_cand hgrow hops hin hi hc)
  have stores {c : MemOp} (hc : E.cand (rankOrder (rankOf H)) i x (.op c)) : (c.isStore && c.hasB x) = true := by
    obtain ⟨-, ⟨hst, hcx⟩, -⟩ := hc
    rw [hst, MemOp.hasB_iff.2 hcx]
    rfl
  unfold lastEvent
  cases hf : older.find? (fun o => o.isStore && o.hasB x) with
  | none =>
    refine ⟨⟨hmain, rfl, .inl trivial⟩, fun c hc => ?_⟩
    cases c with
    | init y =>
      obtain ⟨-, rfl, -⟩ := hc
      exact .inl rfl
    | op c => exact absurd (stores hc) (List.find?_eq_none.1 hf c (before hc))
  | some o =>
    obtain ⟨ho, l1, l2, rfl, hnot⟩ := List.find?_eq_some_iff_append.1 hf
    have hmem : E.ops o := (hops o).2 ⟨n, by simp [hs]⟩
    rw [Bool.and_eq_true, MemOp.hasB_iff] at ho
    refine ⟨⟨hmem, ho, .inl ((rankOf_lt_iff hgrow hnodup hs ((hops o).1 hmem)).2 (by simp))⟩, fun c hc => ?_⟩
    cases c with
    | init y => exact .inr trivial
    | op c =>
      rcases List.mem_append.1 (before hc) with h1 | h1
      · exact absurd (stores hc) (by rw [(Bool.not_eq_true' _).mp (hnot c h1)]; exact Bool.false_ne_true)
      · rcases List.mem_cons.1 h1 with rfl | h1
        · exact .inl rfl
        · have hs' : H n = (newer ++ i :: l1) ++ o :: l2 := by simpa using hs
          exact .inr ((rankOf_lt_iff hgrow hnodup hs' ((hops c).1 hc.1)).2 h1)

include hgrow hops hin in
/-- Operations of one hart performed in program order, each load reading the last store, make a legal execution. -/
theorem legal_of_inOrder : E.LegalWith (rankOrder (rankOf H)) := by
  have hnodup n := (hin n).nodup
  have hstrict : E.StrictOrder (rankOrder (rankOf H)) :=
    rankOrder_strict fun a b ha hb => rankOf_inj hgrow hnodup ((hops a).1 ha) ((hops b).1 hb)
  refine { order := hstrict, initFirst := fun _ _ _ _ => trivial,
           preserved := fun a b ha hb hppo => rankOf_of_po hgrow hops hin ha hb hppo.1, loadValue := fun i hi hl x hx => ?_,
           atomicity := fun r w hr hw hp _ _ x hx e he => ⟨?_, ?_⟩, progress := fun b hb => ?_ }
  · obtain ⟨n, hn⟩ := (hops i).1 hi
    obtain ⟨l1, l2, hs⟩ := List.append_of_mem hn
    exact ⟨_, rf_lastEvent hgrow hops hin hs hx, (hs ▸ (hin n).reads : ReadsBack E (l1 ++ i :: l2)).at hl hx⟩
  · obtain ⟨-, -, hh, hlt, -⟩ := hp
    exact hstrict.trans e (.op r) (.op w) he.1.1 hr hw (rankOrder_of_cand hgrow hops hin hr he.1)
      (rankOf_of_po hgrow hops hin hr hw ⟨hh, hlt⟩)
  · rintro ⟨t, ht, -, -, hne, -⟩
    obtain ⟨n, hn⟩ := (hops t).1 ht
    obtain ⟨m, hm⟩ := (hops r).1 hr
    exact hne (((hin n).hart t hn).trans ((hin m).hart r hm).symm)
  · obtain ⟨n, hn⟩ := (hops b).1 hb
    obtain ⟨l1, l2, hs⟩ := List.append_of_mem hn
    exact Set.Finite.subset (List.finite_toSet l2) fun a ha =>
      (rankOf_lt_iff hgrow hnodup hs ((hops a).1 ha.1)).1 ha.2

end Growing

end Sys2Proof.Machine
end

section
/-! SUPPORT. With one hart, every operation is performed in program order and reads the last store: the runs are legal
(20_memory.md R114). -/

namespace Sys2Proof.Machine

open Sys2Proof.Claims

variable {E : Execution} {s s₀ t : State} {ops l : List MemOp} {a n x : Nat} {bs : List Byte}

/-! ### Memory is what the last stores wrote -/

/-- A piece of an access holds the bytes of the access. -/
theorem getElem?_piece {p : Nat × Nat} (h1 : a + p.1 ≤ x) (h2 : x < a + p.1 + p.2) :
    ((bs.drop p.1).take p.2)[x - (a + p.1)]? = bs[x - a]? := by
  rw [List.getElem?_take_of_lt (by omega), List.getElem?_drop, show p.1 + (x - (a + p.1)) = x - a by omega]

/-- What a load on a piece returns. -/
theorem State.loadOp_returned {an : Annot} {p : Nat × Nat} (h : (s.loadOp a bs an p).has x) :
    (s.loadOp a bs an p).returned x = bs[x - a]? :=
  getElem?_piece h.1 h.2

/-- What a store on a piece stores. -/
theorem State.storeOp_stored {an : Annot} {sc : Option Nat} {p : Nat × Nat} (h : (s.storeOp a bs an sc p).has x) :
    (s.storeOp a bs an sc p).stored[x - (s.storeOp a bs an sc p).addr]? = bs[x - a]? :=
  getElem?_piece h.1 h.2

theorem isStore_of_mem_loads {an : Annot} {ps : List (Nat × Nat)} {o : MemOp} (h : o ∈ (ps.map (s.loadOp a bs an)).reverse) :
    o.isStore = false := by
  obtain ⟨p, -, rfl⟩ := List.mem_map.1 (List.mem_reverse.1 h)
  rfl

theorem isLoad_of_mem_stores {an : Annot} {sc : Option Nat} {ps : List (Nat × Nat)} {o : MemOp}
    (h : o ∈ (ps.map (s.storeOp a bs an sc)).reverse) : o.isLoad = false := by
  obtain ⟨p, -, rfl⟩ := List.mem_map.1 (List.mem_reverse.1 h)
  rfl

/-- Stores that cover an access, each storing its bytes, are the last to store what memory holds after the write. -/
theorem written_of_write (hp : t.params = s.params) (hm : t.mem = s.mem.write a bs)
    (hin : ∀ o ∈ ops, o.has x → (a ≤ x ∧ x < a + bs.length) ∧ o.stored[x - o.addr]? = bs[x - a]?)
    (hcover : a ≤ x ∧ x < a + bs.length → ∃ o ∈ ops, o.isStore = true ∧ o.has x)
    (hs : E.written (lastEvent l x) x = some (s.byteAt x)) : E.written (lastEvent (ops ++ l) x) x = some (t.byteAt x) := by
  by_cases hx : a ≤ x ∧ x < a + bs.length
  · refine written_append_of_store (fun o ho _ hox => ?_) (hcover hx)
    have hget : bs[x - a]? = some bs[x - a] := List.getElem?_eq_getElem (by omega)
    rw [(hin o ho hox).2, State.byteAt, hm, Memory.at?_write, if_pos hx, hget]
  · rw [lastEvent_append_of_not (fun o ho h => hx (hin o ho h.2).1), hs]
    by_cases heq : t.byteAt x = s.byteAt x
    · rw [heq]
    · exact absurd (State.byteAt_changed hm hp heq) hx

/-- Every load of the history has read the last store before it, and so would a load of memory now. -/
def ReadsMemory (E : Execution) (s : State) : Prop :=
  ReadsBack E s.history ∧ ∀ x, E.written (lastEvent s.history x) x = some (s.byteAt x)

theorem ReadsMemory.congr (h : ReadsMemory E s) (hh : t.history = s.history) (hm : t.mem = s.mem) (hp : t.params = s.params) :
    ReadsMemory E t :=
  ⟨hh ▸ h.1, fun x => by rw [hh, State.byteAt_congr hm hp, h.2]⟩

/-- With one hart, an instruction reads memory and leaves there what it stores. -/
theorem MemEffect.readsMemory (h : MemEffect s t) (ho : s.others = []) (hp : t.params = s.params) (hs : ReadsMemory E s) :
    ReadsMemory E t := by
  obtain ⟨hback, hbyte⟩ := hs
  cases h with
  | quiet hm hh => exact ReadsMemory.congr ⟨hback, hbyte⟩ hh hm hp
  | load a n ps an hw hcut _ _ _ hm hh =>
    rw [ReadsMemory, hh]
    refine ⟨hback.append_loads (fun o => isStore_of_mem_loads) fun o hop x hx => ?_, fun x => ?_⟩
    · obtain ⟨p, hps, rfl⟩ := List.mem_map.1 (List.mem_reverse.1 hop)
      have hpx : a + p.1 ≤ x ∧ x < a + p.1 + p.2 := hx
      have hn := (hcut.2.1 p hps).2
      rw [State.loadOp_returned hx, State.memRead_oneHart ho a (by omega), hbyte, Nat.add_sub_of_le (by omega)]
    · rw [lastEvent_append_of_not (fun o hop => by simp [isStore_of_mem_loads hop]), hbyte, State.byteAt_congr hm hp]
  | store a n ps bs an sc hw hcut _ hl _ _ _ hm hh =>
    rw [ReadsMemory, hh]
    refine ⟨hback.append_stores (fun o => isLoad_of_mem_stores), fun x => written_of_write hp hm (fun o hop hx => ?_) (fun hx => ?_)
      (hbyte x)⟩
    · obtain ⟨p, hps, rfl⟩ := List.mem_map.1 (List.mem_reverse.1 hop)
      have hpx : a + p.1 ≤ x ∧ x < a + p.1 + p.2 := hx
      have hn := (hcut.2.1 p hps).2
      exact ⟨by omega, State.storeOp_stored hx⟩
    · obtain ⟨p, hps, h1, h2⟩ := hcut.2.2 (x - a) (by omega)
      refine ⟨_, List.mem_reverse.2 (List.mem_map_of_mem hps), rfl, ?_, ?_⟩
      · show a + p.1 ≤ x
        omega
      · show x < a + p.1 + p.2
        omega
  | amo a n bs an hw _ hl _ _ _ hm hh =>
    rw [ReadsMemory, hh]
    refine ⟨⟨fun _ x hx => ?_, hback⟩, fun x => written_of_write (ops := [_]) hp hm (fun o hop hx => ?_) (fun hx => ?_) (hbyte x)⟩
    · obtain ⟨hx1, hx2⟩ : a ≤ x ∧ x < a + n := hx
      have hk : x - a < n := by omega
      exact (State.memRead_oneHart ho a hk).trans (by rw [hbyte, Nat.add_sub_of_le hx1])
    · obtain rfl := List.mem_singleton.1 hop
      exact ⟨hl ▸ hx, rfl⟩
    · exact ⟨_, List.mem_singleton_self _, rfl, hl ▸ hx⟩

theorem State.turn_readsMemory (h : s.turn = .next t) (ho : s.others = []) (hs : ReadsMemory E s) : ReadsMemory E t := by
  obtain ⟨-, rfl⟩ | ⟨-, -, rfl⟩ | ⟨-, -, i, -, hx⟩ := State.turn_next h
  · exact hs
  · exact hs
  · exact (exec_effect hx).1.readsMemory ho (exec_kept hx).1 (hs.congr rfl rfl rfl)

/-! ### The states of a run of one hart -/

/-- What holds in every state of a run of one hart from s₀. -/
structure OneHart (s₀ s : State) : Prop where
  params : s.params = s₀.params
  id : s.hart.id = s₀.hart.id
  others : s.others = []
  pos : s.hart.pos = s.hart.stream.length
  recorded : Recorded s
  hart : ∀ o ∈ s.history, o.hart = s₀.hart.id
  inst : s.history.Pairwise (fun a b => b.inst ≤ a.inst)
  reads : ReadsMemory s₀.execution s

/-- The bytes of main memory and INIT_MEM are those of the parameters. -/
theorem State.execution_main (hp : t.params = s.params) : t.execution.main = s.execution.main := by
  simp only [State.execution, State.xlen, hp]

theorem State.execution_init (hp : t.params = s.params) : t.execution.init = s.execution.init := by
  simp only [State.execution, hp]

theorem oneHart_of_fresh (h : FreshOneHart s) : OneHart s s := by
  obtain ⟨ho, hh, hm, hs, hp, -⟩ := h
  refine { params := rfl, id := rfl, others := ho, pos := by rw [hp, hs]; rfl, recorded := recorded_of_nil hh,
           hart := by simp [hh], inst := by simp [hh], reads := ?_ }
  rw [ReadsMemory, hh]
  refine ⟨trivial, fun x => ?_⟩
  rw [State.byteAt, hm]
  rfl

theorem OneHart.step (hs : OneHart s₀ s) (h : step s = .next t) : OneHart s₀ t := by
  obtain ⟨k, ops, hk, hh, hp, hhist, hadd⟩ := step_added h
  rw [hs.others] at hh
  obtain ⟨rfl, hto⟩ : t.hart = k ∧ t.others = [] := List.cons.inj hh
  have hids : (s.harts.map Hart.id).Nodup := by simp [State.harts, hs.others]
  have hpos : ∀ k ∈ s.harts, k.pos = k.stream.length := by simpa [State.harts, hs.others] using hs.pos
  obtain ⟨-, -, hrec⟩ := stepKeepsRecorded s t hids hpos hs.recorded h
  refine { params := hp.trans hs.params, id := hk.1.trans hs.id, others := hto, pos := hk.pos hs.pos, recorded := hrec,
           hart := ?_, inst := ?_, reads := ?_ }
  · intro o ho
    rcases List.mem_append.1 (hhist ▸ ho) with ho | ho
    · exact (hadd.1 o ho).2.1.trans hs.id
    · exact hs.hart o ho
  · rw [hhist]
    refine List.pairwise_append.2 ⟨List.pairwise_of_forall_mem_list fun a ha b hb => ?_, hs.inst, fun a ha b hb => ?_⟩
    · exact ((hadd.1 b hb).2.2.trans (hadd.1 a ha).2.2.symm).le
    · have hrb : RecordedOp s b := (recorded_iff.1 hs.recorded).2.2 b hb
      rw [(hadd.1 a ha).2.2]
      exact (hrb.older hids hs.pos ((hs.hart b hb).trans hs.id.symm)).le
  · obtain ⟨u, hu, rfl⟩ := step_next h
    obtain ⟨hup, hum, huh, -⟩ := u.yield_fields
    exact (State.turn_readsMemory hu hs.others hs.reads).congr huh hum hup

/-- The history of such a state is in order, in any execution with its main memory and INIT_MEM. -/
theorem OneHart.inOrder (hs : OneHart s₀ s) (hm : s₀.execution.main = E.main) (hi : s₀.execution.init = E.init) :
    InOrder E s₀.hart.id s.history := by
  obtain ⟨hnodup, -, hops⟩ := recorded_iff.1 hs.recorded
  exact InOrder.congr hm hi ⟨hnodup, hs.hart, fun o ho x hx => State.execution_main hs.params ▸ (hops o ho).2.1 x hx, hs.inst,
    hs.reads.1⟩

theorem OneHart.of_reaches (h0 : FreshOneHart s₀) (h : Reaches s₀ t) : OneHart s₀ t := by
  induction h with
  | here => exact oneHart_of_fresh h0
  | more _ hstep ih => exact ih.step hstep

/-- Every state of a run of one hart is admitted. -/
theorem OneHart.admitted (hs : OneHart s₀ s) : s.Admitted :=
  ⟨_, legal_of_inOrder (H := fun _ => s.history) (fun _ _ _ => List.suffix_rfl) (fun _ => ⟨fun h => ⟨0, h⟩, fun ⟨_, h⟩ => h⟩)
    fun _ => hs.inOrder (State.execution_main hs.params).symm (State.execution_init hs.params).symm⟩

end Sys2Proof.Machine
end

section
/-! SUPPORT. Runs: what stays, what only grows, and how far every hart is after some rounds of turns (20_memory.md R66, R98). -/

namespace Sys2Proof.Machine

open Sys2Proof.Claims

variable {s t : State} {h m n p : Nat} {k : Hart}

/-- A hart that has ended keeps its stream. -/
theorem step_streamOf_ended (hs : (s.harts.map Hart.id).Nodup) (hstep : step s = .next t)
    (hend : ∀ k ∈ s.harts, k.id = h → k.ended = true) :
    t.streamOf h = s.streamOf h ∧ ∀ k ∈ t.harts, k.id = h → k.ended = true := by
  have ht := (step_ids hstep).nodup_iff.2 hs
  obtain ⟨k, hk, hh, -⟩ := step_harts hstep
  have turned (heq : k.id = h) : k.ended = true ∧ k.stream = s.hart.stream := by
    obtain ⟨hid, ⟨he, hst, -⟩ | ⟨hne, -⟩⟩ := hk
    · exact ⟨he, hst⟩
    · rw [hend _ (List.mem_cons_self ..) (hid.symm.trans heq)] at hne
      cases hne
  have mem {j : Hart} : j ∈ t.harts ↔ j ∈ s.others ∨ j = k := by rw [hh, List.mem_append, List.mem_singleton]
  constructor
  · by_cases hex : ∃ j ∈ t.harts, j.id = h
    · obtain ⟨j, hj, rfl⟩ := hex
      rw [State.streamOf_of_mem ht hj]
      rcases mem.1 hj with ho | rfl
      · rw [State.streamOf_of_mem hs (List.mem_cons_of_mem _ ho)]
      · rw [(turned rfl).2, hk.1, State.streamOf_of_mem hs (List.mem_cons_self ..)]
    · push Not at hex
      rw [State.streamOf_of_not_mem hex, State.streamOf_of_not_mem fun j hj heq => ?_]
      rcases List.mem_cons.1 hj with rfl | hj
      · exact hex k (mem.2 (.inr rfl)) (hk.1.trans heq)
      · exact hex j (mem.2 (.inl hj)) heq
  · intro j hj heq
    rcases mem.1 hj with ho | rfl
    · exact hend j (List.mem_cons_of_mem _ ho) heq
    · exact (turned heq).1

theorem State.allEnded_iff : s.allEnded = true ↔ ∀ k ∈ s.harts, k.ended = true := by
  simp [State.allEnded, State.harts]

/-- When every hart has ended, a step only passes the turn on. -/
theorem step_allEnded (hstep : step s = .next t) (hend : s.allEnded = true) : t.history = s.history ∧ t.allEnded = true := by
  rw [State.allEnded_iff] at hend
  obtain ⟨u, hu, rfl⟩ := step_next hstep
  have hhart := hend _ (List.mem_cons_self ..)
  obtain ⟨-, rfl⟩ | ⟨hne, -⟩ | ⟨hne, -⟩ := State.turn_next hu
  · obtain ⟨-, -, hhist, -, -, hharts⟩ := u.yield_fields
    refine ⟨hhist, State.allEnded_iff.2 fun k hk => hend k ?_⟩
    rw [hharts, List.mem_append, List.mem_singleton] at hk
    exact List.mem_cons.2 hk.symm
  all_goals simp [hhart] at hne

/-- The hart has ended, or has run m instructions. -/
def Hart.Past (m : Nat) (k : Hart) : Prop := k.ended = true ∨ m ≤ k.stream.length

/-- A turn takes a hart one further. -/
theorem Turned.past {k' : Hart} (hk : Turned k k') (hm : k.Past m) : k'.Past (m + 1) := by
  obtain ⟨-, ⟨he, -⟩ | ⟨hne, n, hst, -⟩⟩ := hk
  · exact .inl he
  · rcases hm with he | hm
    · rw [he] at hne
      cases hne
    · exact .inr (by rw [hst, List.length_cons]; omega)

section Run

variable {r : Nat → State} (hr : IsRun r)

include hr in
theorem IsRun.params (n : Nat) : (r n).params = (r 0).params := by
  induction n with
  | zero => rfl
  | succ n ih =>
    obtain ⟨-, -, -, hp⟩ := step_harts (hr n)
    exact hp.trans ih

include hr in
theorem IsRun.harts_length (n : Nat) : (r n).harts.length = (r 0).harts.length := by
  induction n with
  | zero => rfl
  | succ n ih => simpa using (step_ids (hr n)).length_eq.trans (by simpa using ih)

include hr in
theorem IsRun.ids (hid : ((r 0).harts.map Hart.id).Nodup) (n : Nat) : ((r n).harts.map Hart.id).Nodup := by
  induction n with
  | zero => exact hid
  | succ n ih => exact (step_ids (hr n)).nodup_iff.2 ih

include hr in
theorem IsRun.history_suffix (hmn : m ≤ n) : (r m).history <:+ (r n).history := by
  induction n, hmn using Nat.le_induction with
  | base => exact List.suffix_rfl
  | succ n _ ih =>
    obtain ⟨-, ops, -, -, -, hh, -⟩ := step_added (hr n)
    exact ih.trans ⟨ops, hh.symm⟩

include hr in
theorem IsRun.streamOf_suffix (hid : ((r 0).harts.map Hart.id).Nodup) (hmn : m ≤ n) (h : Nat) :
    (r m).streamOf h <:+ (r n).streamOf h := by
  induction n, hmn using Nat.le_induction with
  | base => exact List.suffix_rfl
  | succ n _ ih => exact ih.trans (step_streamOf (hr.ids hid n) (hr n) h)

include hr in
theorem IsRun.streamOf_ended (hid : ((r 0).harts.map Hart.id).Nodup) (hmn : m ≤ n)
    (hend : ∀ k ∈ (r m).harts, k.id = h → k.ended = true) : (r n).streamOf h = (r m).streamOf h := by
  suffices (r n).streamOf h = (r m).streamOf h ∧ ∀ k ∈ (r n).harts, k.id = h → k.ended = true from this.1
  induction n, hmn using Nat.le_induction with
  | base => exact ⟨rfl, hend⟩
  | succ n _ ih =>
    obtain ⟨h1, h2⟩ := step_streamOf_ended (hr.ids hid n) (hr n) ih.2
    exact ⟨h1.trans ih.1, h2⟩

include hr in
theorem IsRun.history_allEnded (hmn : m ≤ n) (hend : (r m).allEnded = true) : (r n).history = (r m).history := by
  suffices (r n).history = (r m).history ∧ (r n).allEnded = true from this.1
  induction n, hmn using Nat.le_induction with
  | base => exact ⟨rfl, hend⟩
  | succ n _ ih =>
    obtain ⟨h1, h2⟩ := step_allEnded (hr n) ih.2
    exact ⟨h1.trans ih.1, h2⟩

include hr in
/-- In a round, the harts that have had their turn stand at the end of the ring and are one further. -/
theorem IsRun.turns (hm : ∀ k ∈ (r n).harts, k.Past m) {j : Nat} (hj : j ≤ (r n).harts.length) :
    ∃ done, (r (n + j)).harts = (r n).harts.drop j ++ done ∧ ∀ k ∈ done, k.Past (m + 1) := by
  induction j with
  | zero => exact ⟨[], by simp, by simp⟩
  | succ j ih =>
    obtain ⟨done, hh, hdone⟩ := ih (by omega)
    rw [List.drop_eq_getElem_cons hj, List.cons_append] at hh
    obtain ⟨hhart, hothers⟩ : (r (n + j)).hart = (r n).harts[j] ∧ (r (n + j)).others = (r n).harts.drop (j + 1) ++ done :=
      List.cons.inj hh
    obtain ⟨k, hk, hnext, -⟩ := step_harts (hr (n + j))
    refine ⟨done ++ [k], by rw [← List.append_assoc, ← hothers]; exact hnext, fun k' hk' => ?_⟩
    rcases List.mem_append.1 hk' with hk' | hk'
    · exact hdone k' hk'
    · obtain rfl := List.mem_singleton.1 hk'
      exact hk.past (hhart ▸ hm _ (List.getElem_mem _))

include hr in
/-- After m rounds every hart has ended or has run m instructions. -/
theorem IsRun.rounds (m : Nat) : ∀ k ∈ (r (m * (r 0).harts.length)).harts, k.Past m := by
  induction m with
  | zero => exact fun k _ => .inr (Nat.zero_le _)
  | succ m ih =>
    have hlen := hr.harts_length (m * (r 0).harts.length)
    obtain ⟨done, hh, hdone⟩ := hr.turns ih (le_refl _)
    rw [List.drop_length, List.nil_append, hlen, ← Nat.succ_mul] at hh
    exact hh ▸ hdone

include hr in
/-- The execution of the run holds every `Instance` that a state of it holds. -/
theorem IsRun.inst_of_state (hid : ((r 0).harts.map Hart.id).Nodup) {i : Instance}
    (hi : (r n).execution.inst h p = some i) : (runExecution r).inst h p = some i := by
  rw [runExecution_inst, State.execution_inst]
  rw [State.execution_inst] at hi
  rcases Nat.le_total n ((p + 1) * (r 0).harts.length) with hle | hle
  · rw [streamAt_of_suffix (hr.streamOf_suffix hid hle h) (streamAt_lt hi), hi]
  · by_cases hend : ∀ k ∈ (r ((p + 1) * (r 0).harts.length)).harts, k.id = h → k.ended = true
    · rw [← hr.streamOf_ended hid hle hend, hi]
    · push Not at hend
      obtain ⟨k, hk, rfl, hne⟩ := hend
      have hlen : p + 1 ≤ k.stream.length := (hr.rounds (p + 1) k hk).resolve_left hne
      rw [← State.streamOf_of_mem (hr.ids hid _) hk] at hlen
      rw [← streamAt_of_suffix (hr.streamOf_suffix hid hle k.id) hlen, hi]

include hr in
/-- A state of the run holds every `Instance` of it once the hart has ended. -/
theorem IsRun.inst_to_state (hid : ((r 0).harts.map Hart.id).Nodup) (hend : ∀ k ∈ (r n).harts, k.id = h → k.ended = true)
    {i : Instance} (hi : (runExecution r).inst h p = some i) : (r n).execution.inst h p = some i := by
  rw [runExecution_inst, State.execution_inst] at hi
  rw [State.execution_inst]
  rcases Nat.le_total ((p + 1) * (r 0).harts.length) n with hle | hle
  · rw [streamAt_of_suffix (hr.streamOf_suffix hid hle h) (streamAt_lt hi), hi]
  · rw [← hr.streamOf_ended hid hle hend, hi]

include hr in
/-- When every hart has ended, the execution of the run is that of the state. -/
theorem IsRun.execution_allEnded (hid : ((r 0).harts.map Hart.id).Nodup) (hend : (r n).allEnded = true) :
    runExecution r = (r n).execution := by
  have hops : (runExecution r).ops = (r n).execution.ops := by
    funext o
    refine propext ⟨fun ⟨m, hm⟩ => ?_, fun ho => ⟨n, ho⟩⟩
    rcases Nat.le_total m n with hle | hle
    · exact (hr.history_suffix hle).subset hm
    · rwa [hr.history_allEnded hle hend] at hm
  have hinst : (runExecution r).inst = (r n).execution.inst := by
    funext h p
    exact Option.ext fun i => ⟨hr.inst_to_state hid fun k hk _ => State.allEnded_iff.1 hend k hk, hr.inst_of_state hid⟩
  have hmain : (runExecution r).main = (r n).execution.main := (State.execution_main (hr.params n)).symm
  have hinit : (runExecution r).init = (r n).execution.init := (State.execution_init (hr.params n)).symm
  calc runExecution r = ⟨(runExecution r).ops, (runExecution r).inst, (runExecution r).main, (runExecution r).init⟩ := rfl
    _ = (r n).execution := by rw [hops, hinst, hmain, hinit]

include hr in
theorem IsRun.oneHart (h0 : FreshOneHart (r 0)) (n : Nat) : OneHart (r 0) (r n) := by
  induction n with
  | zero => exact oneHart_of_fresh h0
  | succ n ih => exact ih.step (hr n)

end Run

/-- Settles O54: by the rounds of turns, and for one hart by the order in which the operations are performed. -/
theorem singleHartRunsAreAdmitted : Obligations.SingleHartRunsAreAdmitted := by
  refine ⟨fun r hr hid => ⟨fun n h p i hi => hr.inst_of_state hid hi, fun n hend => ?_⟩, fun s t h0 hst => ?_, fun r hr h0 => ?_⟩
  · rw [RunAdmitted, State.Admitted, hr.execution_allEnded hid hend]
  · exact (OneHart.of_reaches h0 hst).admitted
  · exact ⟨_, legal_of_inOrder (H := fun n => (r n).history) (fun _ _ => hr.history_suffix) (fun _ => Iff.rfl)
      fun n => (hr.oneHart h0 n).inOrder rfl rfl⟩

end Sys2Proof.Machine
end

section
/-! SUPPORT. The decoder reads back what the encoder packs, for every constructor (30_encoding.md R133, R134). -/

namespace Sys2Proof

namespace Laws.RoundTrip

/-- Every constructor is read back, in the order of the constructors. -/
theorem statement (i : Instr) : Statement i :=
  Instr.rec (motive := Statement)
    lui auipc jal jalr beq bne blt bge bltu bgeu lb lh lw lbu lhu sb sh sw addi slti sltiu xori ori andi slli32 srli32 srai32
    add sub sll slt sltu xor srl sra or and fence fenceI ecall ebreak csrrw csrrs csrrc csrrwi csrrsi csrrci lwu ld sd slli
    srli srai addiw slliw srliw sraiw addw subw sllw srlw sraw mul mulh mulhsu mulhu div divu rem remu mulw divw divuw remw
    remuw lrW scW amoswapW amoaddW amoxorW amoandW amoorW amominW amomaxW amominuW amomaxuW lrD scD amoswapD amoaddD amoxorD
    amoandD amoorD amominD amomaxD amominuD amomaxuD flw fsw fmaddS fmsubS fnmsubS fnmaddS faddS fsubS fmulS fdivS fsqrtS
    fsgnjS fsgnjnS fsgnjxS fminS fmaxS fcvtWS fcvtWUS fmvXW feqS fltS fleS fclassS fcvtSW fcvtSWU fmvWX fcvtLS fcvtLUS fcvtSL
    fcvtSLU fld fsd fmaddD fmsubD fnmsubD fnmaddD faddD fsubD fmulD fdivD fsqrtD fsgnjD fsgnjnD fsgnjxD fminD fmaxD fcvtSD
    fcvtDS feqD fltD fleD fclassD fcvtWD fcvtWUD fcvtDW fcvtDWU fcvtLD fcvtLUD fmvXD fcvtDL fcvtDLU fmvDX i

end Laws.RoundTrip

theorem decodeFields_encodeFields {x : Xlen} {i : Instr} (hx : Machine.existsFor x i = true) (hi : offsetEven i = true) :
    decodeFields x (encodeFields i) = some i :=
  Laws.RoundTrip.statement i x hx hi

/-! ### What holds of the row the decoder finds -/

/-- If there is a row, it meets the condition. -/
def RowMeets (P : Instr → Prop) (o : Option Instr) : Prop := ∀ i, o = some i → P i

section RowMeets

variable {P : Instr → Prop}

theorem RowMeets.none : RowMeets P none := fun _ h => nomatch h

theorem RowMeets.some {i : Instr} (h : P i) : RowMeets P (some i) := fun _ hi => Option.some.inj hi ▸ h

/-- A row behind a check is found only when the check holds. -/
theorem RowMeets.ite {c : Prop} [Decidable c] {a b : Option Instr} (ha : c → RowMeets P a) (hb : RowMeets P b) :
    RowMeets P (if c then a else b) := by
  split_ifs with h
  · exact ha h
  · exact hb

end RowMeets

/-- Every major opcode of the table ends in 11: a row is found for 32-bit words only. -/
theorem op_low_of_row (x : Xlen) (f : Fields) : RowMeets (fun _ => f.op.extractLsb' 0 2 = 3) (decodeFields x f) := by
  unfold decodeFields
  iterate 21 refine .ite (fun hop _ _ => by rw [hop]; rfl) ?_
  exact .none

/-! ### The decoder on a word, by its fields -/

section Decode

variable {x : Xlen} {e : Ext} {w : BitVec 32} {i : Instr}

theorem splitWord_op_low (w : BitVec 32) : (splitWord w).op.extractLsb' 0 2 = w.extractLsb' 0 2 := by
  apply BitVec.eq_of_toNat_eq
  simp only [splitWord, extract_toNat]
  omega

theorem decode_of_low_ne (h : w.extractLsb' 0 2 ≠ 3) : decode x e w = .error .compressed := if_pos h

theorem decode_of_noRow (hlow : w.extractLsb' 0 2 = 3) (h : decodeFields x (splitWord w) = none) :
    decode x e w = .error .noRow := by
  rw [decode, if_neg (not_not.2 hlow), h]

theorem decode_of_row (h : decodeFields x (splitWord w) = some i) :
    decode x e w = if Machine.validFor x e i then .ok i else .error .notPresent := by
  have hlow := op_low_of_row x _ i h
  rw [splitWord_op_low] at hlow
  rw [decode, if_neg (not_not.2 hlow), h]

theorem row_of_decode (h : decode x e w = .ok i) :
    decodeFields x (splitWord w) = some i ∧ Machine.validFor x e i = true := by
  unfold decode at h
  split_ifs at h
  split at h
  · cases h
  · rename_i j hj
    split_ifs at h with hv
    cases h
    exact ⟨hj, hv⟩

theorem decode_encode_of_row (h : decodeFields x (encodeFields i) = some i) :
    decode x e (encode i) = if Machine.validFor x e i then .ok i else .error .notPresent :=
  decode_of_row (by rw [encode, splitWord_joinWord, h])

end Decode

/-- Settles O1: the word of an instruction has its fields, and these are read back. -/
theorem decodeInvertsEncode : Obligations.DecodeInvertsEncode := by
  intro x e i ⟨hx, he, ho⟩
  rw [decode_encode_of_row (decodeFields_encodeFields hx ho), Machine.validFor, hx, he]
  rfl

end Sys2Proof
end

section
/-! SUPPORT. The encoder packs what the decoder reads: every row is found in exactly the fields it encodes to (30_encoding.md R133
to R138, R146). -/

namespace Sys2Proof

/-! ### Formats -/

section Pack

variable {f : Fields} {f7 : BitVec 7} {rd rs1 rs2 : BitVec 5} {f3 : BitVec 3} {op : BitVec 7}

/-- Fields are put together from their parts only. -/
theorem encR_eq_iff : encR f7 rs2 rs1 f3 rd op = f ↔
    f.f7 = f7 ∧ f.rs2 = rs2 ∧ f.rs1 = rs1 ∧ f.f3 = f3 ∧ f.rd = rd ∧ f.op = op := by
  obtain ⟨_, _, _, _, _, _⟩ := f
  simp [encR, eq_comm]

theorem encI_immI (h3 : f.f3 = f3) (hop : f.op = op) : encI f.immI f.rs1 f3 f.rd op = f :=
  encR_eq_iff.2 ⟨(extract_append_high ..).symm, (extract_append_low ..).symm, rfl, h3, rfl, hop⟩

theorem encS_immS (h3 : f.f3 = f3) (hop : f.op = op) : encS f.immS f.rs2 f.rs1 f3 op = f :=
  encR_eq_iff.2 ⟨(extract_append_high ..).symm, rfl, rfl, h3, (extract_append_low ..).symm, hop⟩

theorem encU_immU (hop : f.op = op) : encU f.immU f.rd op = f := by
  refine encR_eq_iff.2 ⟨?_, ?_, ?_, ?_, rfl, hop⟩ <;>
  · apply BitVec.eq_of_toNat_eq
    simp only [Fields.immU, extract_toNat, append_toNat]
    omega

/-- The parts of a B immediate are those it is put together from. -/
theorem immB_parts {v : BitVec 13} {a b : BitVec 1} {c : BitVec 6} {d : BitVec 4} (hv : v = a ++ b ++ c ++ d ++ (0 : BitVec 1)) :
    v.extractLsb' 12 1 ++ v.extractLsb' 5 6 = a ++ c ∧ v.extractLsb' 1 4 ++ v.extractLsb' 11 1 = d ++ b := by
  subst hv
  constructor <;>
  · apply BitVec.eq_of_toNat_eq
    simp only [extract_toNat, append_toNat]
    omega

theorem encB_immB (h3 : f.f3 = f3) (hop : f.op = op) : encB f.immB f.rs2 f.rs1 f3 op = f := by
  obtain ⟨h7, hd⟩ := immB_parts (v := f.immB) rfl
  rw [BitVec.extractLsb'_append_extractLsb' (w := 1) (len := 6)] at h7
  rw [BitVec.extractLsb'_append_extractLsb' (w := 4) (len := 1)] at hd
  exact encR_eq_iff.2 ⟨h7.symm, rfl, rfl, h3, hd.symm, hop⟩

/-- The parts of a J immediate are those it is put together from. -/
theorem immJ_parts {v : BitVec 21} {a b : BitVec 1} {r : BitVec 5} {g : BitVec 3} {c : BitVec 6} {d : BitVec 4}
    (hv : v = a ++ r ++ g ++ b ++ c ++ d ++ (0 : BitVec 1)) :
    v.extractLsb' 20 1 ++ v.extractLsb' 5 6 = a ++ c ∧ v.extractLsb' 1 4 ++ v.extractLsb' 11 1 = d ++ b ∧
    v.extractLsb' 15 5 = r ∧ v.extractLsb' 12 3 = g := by
  subst hv
  refine ⟨?_, ?_, ?_, ?_⟩ <;>
  · apply BitVec.eq_of_toNat_eq
    simp only [extract_toNat, append_toNat]
    omega

theorem encJ_immJ (hop : f.op = op) : encJ f.immJ f.rd op = f := by
  obtain ⟨h7, h2, h1, h3⟩ := immJ_parts (v := f.immJ) rfl
  rw [BitVec.extractLsb'_append_extractLsb' (w := 1) (len := 6)] at h7
  rw [BitVec.extractLsb'_append_extractLsb' (w := 4) (len := 1)] at h2
  exact encR_eq_iff.2 ⟨h7.symm, h2.symm, h1.symm, h3.symm, rfl, hop⟩

theorem encSh6_shamt6 {c : BitVec 6} (h3 : f.f3 = f3) (h6 : f.f6 = c) (hop : f.op = op) :
    encSh6 c f.shamt6 f.rs1 f3 f.rd op = f := by
  subst h6
  refine encR_eq_iff.2 ⟨?_, (extract_append_low ..).symm, rfl, h3, rfl, hop⟩
  rw [Fields.shamt6, extract_append_high, Fields.f6, BitVec.extractLsb'_append_extractLsb']

theorem encR4_f5 {m : BitVec 2} (hm : f.fmt = m) (hop : f.op = op) : encR4 f.f5 m f.rs2 f.rs1 f.f3 f.rd op = f := by
  subst hm
  exact encR_eq_iff.2 ⟨(BitVec.extractLsb'_append_extractLsb' (w := 5) (len := 2)).symm, rfl, rfl, rfl, rfl, hop⟩

/-- A bit as a field of width 1. -/
theorem ofBool_getLsbD {n : Nat} (v : BitVec n) (k : Nat) : BitVec.ofBool (v.getLsbD k) = v.extractLsb' k 1 := by
  ext j hj
  obtain rfl : j = 0 := by omega
  simp

theorem encAmo_f5 {c : BitVec 5} (h3 : f.f3 = f3) (h5 : f.f5 = c) (h2 : f.rs2 = rs2) (hop : f.op = 0b0101111) :
    encAmo c f.aq f.rl rs2 f.rs1 f3 f.rd = f := by
  subst h5
  refine encR_eq_iff.2 ⟨?_, h2, rfl, h3, rfl, hop⟩
  rw [Fields.aq, Fields.rl, ofBool_getLsbD, ofBool_getLsbD]
  apply BitVec.eq_of_toNat_eq
  simp only [Fields.f5, extract_toNat, append_toNat]
  omega

theorem encFence_fields (h3 : f.f3 = 0b000) (hop : f.op = 0b0001111) : encFence f.fm f.pred f.succ f.rs1 f.rd = f := by
  refine encR_eq_iff.2 ⟨?_, ?_, rfl, h3, rfl, hop⟩ <;>
  · apply BitVec.eq_of_toNat_eq
    simp only [Fields.fm, Fields.pred, Fields.succ, extract_toNat, append_toNat]
    omega

end Pack

/-! ### Rows by major opcode -/

section RowEncodes

/-- A row is found in exactly the fields it encodes to. -/
abbrev RowEncodes (f : Fields) (o : Option Instr) : Prop := RowMeets (fun i => encodeFields i = f) o

variable {f : Fields}

theorem rowEncodes_branch (hop : f.op = 0b1100011) : RowEncodes f (rowBranch f) := by
  unfold rowBranch
  iterate 6 refine .ite (fun h3 => .some (encB_immB h3 hop)) ?_
  exact .none

theorem rowEncodes_load (hop : f.op = 0b0000011) : RowEncodes f (rowLoad f) := by
  unfold rowLoad
  iterate 7 refine .ite (fun h3 => .some (encI_immI h3 hop)) ?_
  exact .none

theorem rowEncodes_store (hop : f.op = 0b0100011) : RowEncodes f (rowStore f) := by
  unfold rowStore
  iterate 4 refine .ite (fun h3 => .some (encS_immS h3 hop)) ?_
  exact .none

theorem rowEncodes_opImm (x : Xlen) (hop : f.op = 0b0010011) : RowEncodes f (rowOpImm x f) := by
  unfold rowOpImm
  iterate 6 refine .ite (fun h3 => .some (encI_immI h3 hop)) ?_
  iterate 3 refine .ite (fun ⟨_, h3, h7⟩ => .some (encR_eq_iff.2 ⟨h7, rfl, rfl, h3, rfl, hop⟩)) ?_
  iterate 3 refine .ite (fun ⟨_, h3, h6⟩ => .some (encSh6_shamt6 h3 h6 hop)) ?_
  exact .none

theorem rowEncodes_op (hop : f.op = 0b0110011) : RowEncodes f (rowOp f) := by
  unfold rowOp
  iterate 18 refine .ite (fun ⟨h3, h7⟩ => .some (encR_eq_iff.2 ⟨h7, rfl, rfl, h3, rfl, hop⟩)) ?_
  exact .none

theorem rowEncodes_miscMem (hop : f.op = 0b0001111) : RowEncodes f (rowMiscMem f) := by
  unfold rowMiscMem
  exact .ite (fun h3 => .some (encFence_fields h3 hop)) (.ite (fun h3 => .some (encI_immI h3 hop)) .none)

theorem rowEncodes_system (hop : f.op = 0b1110011) : RowEncodes f (rowSystem f) := by
  unfold rowSystem
  iterate 2 refine .ite (fun ⟨h3, h7, h2, h1, hd⟩ => .some (encR_eq_iff.2 ⟨h7, h2, h1, h3, hd, hop⟩)) ?_
  iterate 6 refine .ite (fun h3 => .some (encI_immI h3 hop)) ?_
  exact .none

theorem rowEncodes_opImm32 (hop : f.op = 0b0011011) : RowEncodes f (rowOpImm32 f) := by
  unfold rowOpImm32
  refine .ite (fun h3 => .some (encI_immI h3 hop)) ?_
  iterate 3 refine .ite (fun ⟨h3, h7⟩ => .some (encR_eq_iff.2 ⟨h7, rfl, rfl, h3, rfl, hop⟩)) ?_
  exact .none

theorem rowEncodes_op32 (hop : f.op = 0b0111011) : RowEncodes f (rowOp32 f) := by
  unfold rowOp32
  iterate 10 refine .ite (fun ⟨h3, h7⟩ => .some (encR_eq_iff.2 ⟨h7, rfl, rfl, h3, rfl, hop⟩)) ?_
  exact .none

theorem rowEncodes_amo (hop : f.op = 0b0101111) : RowEncodes f (rowAmo f) := by
  unfold rowAmo
  iterate 2
    refine .ite (fun ⟨h3, h5, h2⟩ => .some (encAmo_f5 h3 h5 h2 hop)) ?_
    iterate 10 refine .ite (fun ⟨h3, h5⟩ => .some (encAmo_f5 h3 h5 rfl hop)) ?_
  exact .none

theorem rowEncodes_opFp (hop : f.op = 0b1010011) : RowEncodes f (rowOpFp f) := by
  unfold rowOpFp
  iterate 50 refine .ite (fun h => .some (by simp only [encodeFields, encR_eq_iff, h, hop, and_self])) ?_
  exact .none

theorem rowEncodes_loadFp (hop : f.op = 0b0000111) : RowEncodes f (rowLoadFp f) := by
  unfold rowLoadFp
  iterate 2 refine .ite (fun h3 => .some (encI_immI h3 hop)) ?_
  exact .none

theorem rowEncodes_storeFp (hop : f.op = 0b0100111) : RowEncodes f (rowStoreFp f) := by
  unfold rowStoreFp
  iterate 2 refine .ite (fun h3 => .some (encS_immS h3 hop)) ?_
  exact .none

/-- Every row the decoder finds encodes to the fields it was found in; the four R4 opcodes have one shape. -/
theorem rowEncodes_decodeFields (x : Xlen) (f : Fields) : RowEncodes f (decodeFields x f) := by
  unfold decodeFields
  iterate 2 refine .ite (fun hop => .some (encU_immU hop)) ?_
  refine .ite (fun hop => .some (encJ_immJ hop)) ?_
  refine .ite (fun hop => .ite (fun h3 => .some (encI_immI h3 hop)) .none) ?_
  refine .ite rowEncodes_branch <| .ite rowEncodes_load <| .ite rowEncodes_store <| .ite (rowEncodes_opImm x) ?_
  refine .ite rowEncodes_op <| .ite rowEncodes_miscMem <| .ite rowEncodes_system <| .ite rowEncodes_opImm32 ?_
  refine .ite rowEncodes_op32 <| .ite rowEncodes_amo <| .ite rowEncodes_loadFp <| .ite rowEncodes_storeFp ?_
  iterate 4 refine .ite (fun hop => .ite (fun hm => .some (encR4_f5 hm hop)) <| .ite (fun hm => .some (encR4_f5 hm hop)) .none) ?_
  exact .ite rowEncodes_opFp .none

end RowEncodes

/-- Settles O2: every row of the decoder encodes to the fields it was found in. -/
theorem encodeInvertsDecode : Obligations.EncodeInvertsDecode := by
  intro x e w i h
  obtain ⟨hrow, hvalid⟩ := row_of_decode h
  obtain ⟨hx, he⟩ := Bool.and_eq_true_iff.1 hvalid
  exact ⟨⟨hx, he, offsetEven_of_decode h⟩, by rw [encode, rowEncodes_decodeFields x _ i hrow, joinWord_splitWord]⟩

end Sys2Proof
end

section
/-! SUPPORT. Words that are no instruction (30_encoding.md R136, R140, R146, R147). -/

namespace Sys2Proof

open Machine

section Lemmas

variable {x : Xlen} {e : Ext} {w : BitVec 32} {i : Instr} {f : Fields}

/-! ### Rows of another XLEN or EXT -/

/-- Only base rows have an offset. -/
theorem offsetEven_of_group_ne (h : groupOf i ≠ .i) : offsetEven i = true := by
  cases i with
  | jal _ _ | beq _ _ _ | bne _ _ _ | blt _ _ _ | bge _ _ _ | bltu _ _ _ | bgeu _ _ _ => exact absurd rfl h
  | _ => rfl

theorem decode_encode_of_absentGroup (hx : existsFor x i = true) (he : groupPresent e (groupOf i) = false) :
    decode x e (encode i) = .error .notPresent := by
  have hg : groupOf i ≠ .i := fun hg => by simp [hg, groupPresent] at he
  rw [decode_encode_of_row (decodeFields_encodeFields hx (offsetEven_of_group_ne hg)), validFor, hx, he]
  rfl

/-- The rows whose word depends on the XLEN: immediate shifts with a 6-bit amount. -/
def IsShift6 (i : Instr) : Prop := ∃ rd rs1 sh, i = .slli rd rs1 sh ∨ i = .srli rd rs1 sh ∨ i = .srai rd rs1 sh

/-- A row that RV32 does not have exists on RV64, has no branch offset, and is an immediate shift or of another major opcode. -/
theorem rv64_only (h : existsFor .rv32 i = false) :
    existsFor .rv64 i = true ∧ offsetEven i = true ∧ (IsShift6 i ∨ (encodeFields i).op ≠ 0b0010011) := by
  cases i with
  | slli rd rs1 sh => exact ⟨rfl, rfl, .inl ⟨rd, rs1, sh, .inl rfl⟩⟩
  | srli rd rs1 sh => exact ⟨rfl, rfl, .inl ⟨rd, rs1, sh, .inr (.inl rfl)⟩⟩
  | srai rd rs1 sh => exact ⟨rfl, rfl, .inl ⟨rd, rs1, sh, .inr (.inr rfl)⟩⟩
  | _ => first | exact Bool.noConfusion h | exact ⟨rfl, rfl, .inr (by simp [encodeFields, encI, encS, encAmo, encR])⟩

theorem decodeFields_eq_of_op_ne (hop : f.op ≠ 0b0010011) (x y : Xlen) : decodeFields x f = decodeFields y f := by
  simp only [decodeFields, if_neg hop]

theorem decode_rv32_encode_of_rv64 (h : existsFor .rv32 i = false) (hs : ¬IsShift6 i) :
    decode .rv32 e (encode i) = .error .notPresent := by
  obtain ⟨h64, ho, hop⟩ := rv64_only h
  have hrow : decodeFields .rv32 (encodeFields i) = some i := by
    rw [decodeFields_eq_of_op_ne (hop.resolve_left hs) .rv32 .rv64, decodeFields_encodeFields h64 ho]
  rw [decode_encode_of_row hrow, validFor, h]
  rfl

theorem rv32_only (h : existsFor .rv64 i = false) :
    ∃ rd rs1 sh, i = .slli32 rd rs1 sh ∨ i = .srli32 rd rs1 sh ∨ i = .srai32 rd rs1 sh := by
  cases i with
  | slli32 rd rs1 sh => exact ⟨rd, rs1, sh, .inl rfl⟩
  | srli32 rd rs1 sh => exact ⟨rd, rs1, sh, .inr (.inl rfl)⟩
  | srai32 rd rs1 sh => exact ⟨rd, rs1, sh, .inr (.inr rfl)⟩
  | _ => exact Bool.noConfusion h

/-! ### Immediate shifts -/

section Shift

variable {rd rs1 : Reg} {sh : BitVec 6} {c : BitVec 6} {f3 : BitVec 3}

/-- On RV32 a set bit 25 leaves no immediate shift. -/
theorem rowOpImm_rv32_eq_none (h3 : f.f3 = 0b001 ∨ f.f3 = 0b101) (h7 : f.f7.toNat % 2 = 1) : rowOpImm .rv32 f = none := by
  have h0 : f.f7 ≠ 0#7 := fun h => by simp [h] at h7
  have h1 : f.f7 ≠ 32#7 := fun h => by simp [h] at h7
  rcases h3 with h3 | h3 <;> simp [rowOpImm, h3, h0, h1]

/-- On RV32 the word of a shift by 32 or more is no row. -/
theorem decode_rv32_longShift (h3 : f3 = 0b001 ∨ f3 = 0b101) (hsh : 32 ≤ sh.toNat) :
    decode .rv32 e (joinWord (encSh6 c sh rs1 f3 rd 0b0010011)) = .error .noRow := by
  apply decode_of_noRow
  · rw [← splitWord_op_low, splitWord_joinWord]
    exact (rfl : BitVec.extractLsb' 0 2 (0b0010011 : BitVec 7) = 3)
  · rw [splitWord_joinWord]
    refine rowOpImm_rv32_eq_none (f := encSh6 c sh rs1 f3 rd 0b0010011) h3 ?_
    have := sh.isLt
    simp only [encSh6, encR, append_toNat, extract_toNat]
    omega

/-- A shift amount below 32 leaves bit 25 clear. -/
theorem encSh6_short {sh5 : BitVec 5} {op : BitVec 7} (h : sh.toNat = sh5.toNat) :
    encSh6 c sh rs1 f3 rd op = encR (c ++ (0 : BitVec 1)) sh5 rs1 f3 rd op := by
  have hlt := sh5.isLt
  have h5 : sh.extractLsb' 5 1 = 0 := BitVec.eq_of_toNat_eq (by rw [extract_toNat]; simp; omega)
  have h0 : sh.extractLsb' 0 5 = sh5 := BitVec.eq_of_toNat_eq (by rw [extract_toNat]; omega)
  rw [encSh6, h5, h0]

end Shift

/-! ### SYSTEM words -/

/-- With funct3 = 000 the SYSTEM rows are ECALL and EBREAK. -/
theorem row_system_funct3_zero (h3 : f.f3 = 0b000) : RowMeets (fun i => i = .ecall ∨ i = .ebreak) (rowSystem f) := by
  unfold rowSystem
  refine .ite (fun _ => .some (.inl rfl)) (.ite (fun _ => .some (.inr rfl)) ?_)
  iterate 6 refine .ite (fun h => absurd (h3.symm.trans h) (by decide)) ?_
  exact .none

theorem decodeFields_system (hop : f.op = 0b1110011) : decodeFields x f = rowSystem f := by
  simp [decodeFields, hop]

theorem decode_system_noRow (hop : w.extractLsb' 0 7 = 0b1110011) (h3 : w.extractLsb' 12 3 = 0)
    (hecall : w ≠ 0x00000073) (hebreak : w ≠ 0x00100073) : decode x e w = .error .noRow := by
  have hlow : w.extractLsb' 0 2 = 3 := by
    rw [← splitWord_op_low, show (splitWord w).op = 0b1110011 from hop]
    rfl
  refine decode_of_noRow hlow (Option.eq_none_iff_forall_ne_some.2 fun i hi => ?_)
  have hw : encode i = w := by rw [encode, rowEncodes_decodeFields x _ i hi, joinWord_splitWord]
  rw [decodeFields_system hop] at hi
  obtain rfl | rfl := row_system_funct3_zero h3 i hi
  · exact hecall hw.symm
  · exact hebreak hw.symm

end Lemmas

/-- Settles O5, clause by clause; where a word is no row of its own XLEN or EXT, by the row it would be. -/
theorem wordsThatAreNoInstruction : Obligations.WordsThatAreNoInstruction := by
  refine ⟨fun x e w h => decode_of_low_ne h, fun x e i => decode_encode_of_absentGroup, fun e i h hs => ?_,
    fun e rd rs1 sh h => ?_, fun e rd rs1 sh sh5 h x => ?_, fun i => rv32_only, fun x e w => decode_system_noRow, fun x e => rfl⟩
  · refine decode_rv32_encode_of_rv64 h fun ⟨rd, rs1, sh, hi⟩ => ?_
    obtain ⟨h1, h2, h3⟩ := hs rd rs1 sh
    exact hi.elim h1 fun hi => hi.elim h2 h3
  · exact ⟨decode_rv32_longShift (.inl rfl) h, decode_rv32_longShift (.inr rfl) h, decode_rv32_longShift (.inr rfl) h⟩
  · simp only [encode, encodeFields, encSh6_short h]
    exact ⟨rfl, rfl, rfl⟩

end Sys2Proof
end

section
/-! SUPPORT. Rounding modes: which codes are reserved, and numbers that every mode leaves as they are (30_encoding.md R139,
10_state.md R29). -/

namespace Sys2Proof.Machine

/-! ### Numbers the format has -/

section Exact

variable {f : Fmt} {neg : Bool} {m : Nat} {e : Int}

theorem roundAt_exact (r : RoundMode) (neg : Bool) (m : Nat) {e q : Int} (h : q ≤ e) :
    roundAt r neg m e q = (m * 2 ^ (e - q).toNat, false) := if_pos h

/-- A number with no bit below its last place and below the largest power of the format is itself in every mode. -/
theorem Fmt.round_exact (hf : f.Regular) (hm : 0 < m) (hbits : m.log2 ≤ f.fracBits) (hlo : f.qmin ≤ e)
    (hhi : e + m.log2 + 1 < (2 : ℤ) ^ (f.expBits - 1)) (r : RoundMode) :
    f.round r neg m e =
      (f.withSign neg ((f.place m e - f.qmin).toNat * 2 ^ f.fracBits + m * 2 ^ (e - f.place m e).toNat), 0) := by
  have hfree : f.freePlace m e ≤ e := by unfold Fmt.freePlace; omega
  have hplace : f.place m e ≤ e := by unfold Fmt.place; split_ifs <;> assumption
  have hov : ¬f.infBits ≤ f.roundBits r neg m e := by
    rw [Fmt.overflow_iff hf r neg hm, reachesPower_iff f r neg hm, Fmt.freePlace]
    omega
  rw [Fmt.round_eq hm, Fmt.finish, if_neg hov, decide_eq_false hov, Fmt.roundBits, roundAt_exact r neg m hplace]
  rfl

/-- Such a number is rounded to the same pattern in every mode, and so is zero. -/
theorem Fmt.round_mode_irrelevant (hf : f.Regular) (hbits : m.log2 ≤ f.fracBits) (hlo : f.qmin ≤ e)
    (hhi : e + m.log2 + 1 < (2 : ℤ) ^ (f.expBits - 1)) (r q : RoundMode) : f.round r neg m e = f.round q neg m e := by
  rcases Nat.eq_zero_or_pos m with rfl | hm
  · rfl
  · rw [Fmt.round_exact hf hm hbits hlo hhi, Fmt.round_exact hf hm hbits hlo hhi]

end Exact

/-! ### Single precision and 32-bit integers within double precision -/

theorem Fmt.double_regular : Fmt.double.Regular := Fmt.regular_of_standard (.inr rfl)

/-- The finite numbers of single precision. -/
theorem Fmt.single_datum_fin {a : Nat} {n : Bool} {m : Nat} {e : Int} (h : Fmt.single.datum a = .fin n m e) :
    m < 2 ^ 24 ∧ -149 ≤ e ∧ e ≤ 104 := by
  have hq : Fmt.single.qmin = -149 := by decide
  have hfrac : Fmt.single.fracField a < 2 ^ 23 := Nat.mod_lt _ (by decide)
  have hexp : Fmt.single.expField a < 2 ^ 8 := Nat.mod_lt _ (by decide)
  unfold Fmt.datum at h
  rw [hq, show Fmt.single.expBits = 8 from rfl, show Fmt.single.fracBits = 23 from rfl] at h
  split_ifs at h <;> cases h <;> omega

theorem log2_le_of_lt {m k : Nat} (h : m < 2 ^ (k + 1)) : m.log2 ≤ k := by
  rcases Nat.eq_zero_or_pos m with rfl | hm
  · simp
  · exact Nat.lt_succ_iff.1 ((Nat.log2_lt hm.ne').2 h)

/-- Single precision is within double precision: no mode changes the result (45_d.md R377). -/
theorem convert_single_double_mode (r q : RoundMode) (a : Nat) :
    Fmt.convert .single .double r a = Fmt.convert .single .double q a := by
  unfold Fmt.convert
  split
  · rfl
  · rfl
  · rename_i n m e h
    obtain ⟨hm, hlo, hhi⟩ := Fmt.single_datum_fin h
    have hlog : m.log2 ≤ 23 := log2_le_of_lt hm
    exact Fmt.round_mode_irrelevant Fmt.double_regular (hlog.trans (by decide)) (le_trans (by decide) hlo)
      (lt_of_le_of_lt (by omega : _ ≤ (128 : ℤ)) (by decide)) r q

/-- 32-bit integers are within double precision: no mode changes the result (45_d.md R384, R385). -/
theorem ofInt_double_mode (r q : RoundMode) {v : Int} (hlo : -2 ^ 31 ≤ v) (hhi : v < 2 ^ 32) :
    Fmt.double.ofInt r v = Fmt.double.ofInt q v := by
  have hlog : v.natAbs.log2 ≤ 31 := log2_le_of_lt (by omega)
  exact Fmt.round_mode_irrelevant Fmt.double_regular (hlog.trans (by decide)) (by decide)
    (lt_of_le_of_lt (by omega : _ ≤ (32 : ℤ)) (by decide)) r q

/-! ### The mode an instruction selects -/

theorem State.rounding_static (s : State) {rm : BitVec 3} (h : rm ≠ 7) : s.rounding rm = RoundMode.ofCode rm := by
  rw [State.rounding, if_neg h]

theorem State.rounding_dynamic (s : State) : s.rounding 7 = RoundMode.ofCode s.hart.frm := rfl

/-- Settles O40: every row with an rm field asks `withRounding` first, and double precision has every number converted to it. -/
theorem reservedRoundingStops : Obligations.ReservedRoundingStops := by
  refine ⟨fun s => ⟨rfl, rfl, rfl, rfl, rfl, rfl, rfl, fun h => ?_, fun h => ?_⟩, fun s rd rs1 rs2 rs3 rm h i hi => ?_,
    fun r q a v hlo hhi => ⟨convert_single_double_mode r q a, ofInt_double_mode r q hlo hhi⟩⟩
  · rw [s.rounding_dynamic, s.rounding_static h]
  · rw [s.rounding_dynamic, h]
    rfl
  · fin_cases hi <;> exact State.withRounding_of_none h

end Sys2Proof.Machine
end

section
/-! SUPPORT. Retiring an instruction: what is logged and where the hart goes (00_scope.md R9, 20_memory.md R66, R78), and the
instructions that do nothing but write an integer register and go to an address. -/

namespace Sys2Proof.Machine

open Sys2Proof.Claims

variable {s t u : State} {i : Instr} {rd : Reg}

/-- State u is s in the middle of an instruction: of the parameters and the hart, at most registers and the pairing state have
been updated. -/
structure Unretired (s u : State) : Prop where
  params : u.params = s.params
  id : u.hart.id = s.hart.id
  pc : u.hart.pc = s.hart.pc
  entry : u.hart.entry = s.hart.entry
  len : u.hart.len = s.hart.len
  ended : u.hart.ended = s.hart.ended
  pos : u.hart.pos = s.hart.pos
  stream : u.hart.stream = s.hart.stream
  deps : u.hart.deps = s.hart.deps
  ctrl : u.hart.ctrl = s.hart.ctrl

theorem unretired_writeX (h : Unretired s u) (rd : Reg) (v : Word) : Unretired s (u.writeX rd v) := by
  constructor <;> simp [h.params, h.id, h.pc, h.entry, h.len, h.ended, h.pos, h.stream, h.deps, h.ctrl]

theorem unretired_writeCsr (a : BitVec 12) (v : Word) : Unretired s (s.writeCsr a v) := by
  constructor <;> simp

theorem unretired_afterRead (a n : Nat) (d : Bool) (an : Annot) : Unretired s (s.afterRead a n d an) := by
  constructor <;> rfl

theorem unretired_memWrite (a : Nat) (bs : List Byte) (d : Bool) (an : Annot) (sc : Option Nat) :
    Unretired s (s.memWrite a bs d an sc) := by
  constructor <;> rfl

theorem unretired_refl (s : State) : Unretired s s := by constructor <;> rfl

/-- Retiring logs the instruction and goes to the target. -/
theorem Unretired.goesTo (h : Unretired s u) {target : Word} {pc : Int} (hp : (target.toNat : Int) % size s = pc % size s) :
    GoesTo pc i s (u.retireTo i target) := by
  refine ⟨?_, h.ended, h.id, h.entry, h.len, congrArg (· + 1) h.pos, congrArg (_ :: ·) h.stream, ?_⟩
  · have hx : u.xlen = s.xlen := congrArg Params.xlen h.params
    rw [State.pc, State.retireTo_xlen, State.retireTo_hart_pc, hx, Xlen.trunc_toNat, ← hp, size_eq_two_pow]
    exact_mod_cast rfl
  · simp only [State.retireTo, Hart.advance, h.deps, h.ctrl, h.pos]

theorem nextPc_mod_size : (s.nextPc.toNat : Int) % size s = ((s.pc.toNat : Int) + 4) % size s := by
  rw [State.nextPc_toNat, size_eq_two_pow]
  push_cast
  exact Int.emod_emod ..

/-- Retiring goes on at pc + 4. -/
theorem Unretired.goesOn (h : Unretired s u) : GoesOn i s (u.retire i) := by
  have hpc : u.nextPc = s.nextPc := by simp only [State.nextPc, State.pc, State.xlen, h.params, h.pc]
  rw [State.retire, hpc]
  exact h.goesTo nextPc_mod_size

/-- What is written matters modulo 2^XLEN only. -/
theorem xWritten_congr {v w : Int} (h : XWritten s t rd v) (hv : v % size s = w % size s) : XWritten s t rd w := by
  intro r
  rw [← hv]
  exact h r

/-- Writing a container to x[rd] writes every integer that agrees with it modulo 2^XLEN. -/
theorem xWritten_of_mod {w : Word} {v : Int} (hr : ∀ r, t.readX r = (s.writeX rd w).readX r)
    (hv : (w.toNat : Int) % size s = v % size s) : XWritten s t rd v :=
  xWritten_congr (xWritten_writeX rd w hr) hv

/-- An instruction that writes x[rd] and goes to a target does nothing else. -/
theorem jumpsTo_of {w target : Word} {v pc : Int} (h : exec i s = .next ((s.writeX rd w).retireTo i target))
    (hv : (w.toNat : Int) % size s = v % size s) (hp : (target.toNat : Int) % size s = pc % size s) : JumpsTo i s rd v pc := by
  refine ⟨_, h, xWritten_of_mod (fun r => State.retireTo_readX ..) hv, fun r => by simp, ⟨by simp, by simp⟩, ?_,
    ⟨⟨by simp, by simp, by simp⟩, ⟨by simp, fun x => by simp⟩, by simp, by simp⟩,
    (unretired_writeX (unretired_refl s) rd w).goesTo hp⟩
  simp [LrKept]

/-- An instruction that goes to a target does nothing else; the register named is x0. -/
theorem jumpsTo_of_retireTo {target : Word} {pc : Int} (h : exec i s = .next (s.retireTo i target))
    (hp : (target.toNat : Int) % size s = pc % size s) : JumpsTo i s 0 0 pc :=
  jumpsTo_of (w := 0) h rfl hp

/-- An instruction whose meaning is `setX` computes every integer that agrees with the value modulo 2^XLEN. -/
theorem computesX_of {w : Word} {v : Int} (h : exec i s = s.setX rd w i) (hv : (w.toNat : Int) % size s = v % size s) :
    ComputesX i s rd v :=
  jumpsTo_of (h.trans (by rw [State.setX, State.retire, State.writeX_nextPc])) hv nextPc_mod_size

end Sys2Proof.Machine
end

section
/-! SUPPORT. The integer computational instructions: their operations as integers modulo 2^XLEN (40_rv32i.md R200, R201, R218 to
R236; 41_rv64i.md R253 to R255). -/

namespace Sys2Proof.Machine

open Sys2Proof.Claims

variable {s : State} {i : Instr} {rd rs1 : Reg}

/-! ### Operands at width XLEN, as integers -/

theorem ux_eq (r : Reg) : ux s r = (((s.readX r).setWidth s.xlen.bits).toNat : Int) := by rw [State.operand_toNat, ux]

theorem sx_eq (r : Reg) : sx s r = ((s.readX r).setWidth s.xlen.bits).toInt := by
  rw [State.operand_toInt, sx, wrap, ux]

theorem uimm_eq {n : Nat} (v : BitVec n) (h : n ≤ 64) : uimm s v = (((s.imm v).setWidth s.xlen.bits).toNat : Int) := by
  rw [s.imm_toNat v h, uimm, size]

/-! ### The operations at every width, as integers -/

section Alu

variable (n : Nat) (x y : BitVec n)

theorem aluAdd_toNat : ((aluAdd n x y).toNat : Int) = (x.toNat + y.toNat) % 2 ^ n := by
  rw [aluAdd, BitVec.toNat_add]
  push_cast
  rfl

theorem aluSub_toNat : ((aluSub n x y).toNat : Int) = (x.toNat - y.toNat) % 2 ^ n := by
  rw [aluSub, BitVec.toNat_sub']
  have hy := y.isLt
  push_cast [hy.le]
  rw [← Int.add_mul_emod_self_left (x.toNat - y.toNat) (2 ^ n) 1]
  congr 1
  ring

theorem aluXor_toNat : (aluXor n x y).toNat = x.toNat ^^^ y.toNat := BitVec.toNat_xor ..

theorem aluOr_toNat : (aluOr n x y).toNat = x.toNat ||| y.toNat := BitVec.toNat_or ..

theorem aluAnd_toNat : (aluAnd n x y).toNat = x.toNat &&& y.toNat := BitVec.toNat_and ..

theorem aluSll_toNat : ((aluSll n x y).toNat : Int) = x.toNat * 2 ^ (y.toNat % n) % 2 ^ n := by
  rw [aluSll, BitVec.toNat_shiftLeft, Nat.shiftLeft_eq]
  push_cast
  rfl

theorem aluSrl_toNat : ((aluSrl n x y).toNat : Int) = x.toNat / 2 ^ (y.toNat % n) := by
  rw [aluSrl, BitVec.toNat_ushiftRight, Nat.shiftRight_eq_div_pow]
  push_cast
  rfl

/-- The arithmetic shift is the floor of the signed quotient (40_rv32i.md R226, R234). -/
theorem aluSra_toNat : ((aluSra n x y).toNat : Int) = x.toInt / 2 ^ (y.toNat % n) % 2 ^ n := by
  rw [aluSra, BitVec.sshiftRight, BitVec.toNat_ofInt, Int.shiftRight_eq_div_pow]
  have h := Int.emod_nonneg (x.toInt / ((2 ^ (y.toNat % n) : Nat) : Int)) (show ((2 ^ n : Nat) : Int) ≠ 0 by positivity)
  rw [Int.toNat_of_nonneg h]
  push_cast
  rfl

end Alu

/-! ### Rows -/

/-- A row that computes a binary operation at width XLEN. -/
theorem computesX_bin {f : (n : Nat) → BitVec n → BitVec n → BitVec n} {a b : Word} {v : Int}
    (h : exec i s = s.setX rd (s.xlen.bin f a b) i)
    (hv : ((f s.xlen.bits (a.setWidth s.xlen.bits) (b.setWidth s.xlen.bits)).toNat : Int) % size s = v % size s) :
    ComputesX i s rd v :=
  computesX_of h (by rw [Xlen.bin_toNat]; exact hv)

/-- A row that computes a truth value. -/
theorem computesX_test {f : (n : Nat) → BitVec n → BitVec n → Bool} {a b : Word} {p : Prop} [Decidable p]
    (h : exec i s = s.setX rd (boolWord (s.xlen.test f a b)) i)
    (hv : f s.xlen.bits (a.setWidth s.xlen.bits) (b.setWidth s.xlen.bits) = decide p) : ComputesX i s rd (bit p) := by
  refine computesX_of h ?_
  rw [boolWord_toNat, Xlen.test_eq, hv, bit]
  split_ifs <;> simp_all

/-- A row that computes a bitwise operation on two operands given as integers. -/
theorem computesX_bitwise {f : (n : Nat) → BitVec n → BitVec n → BitVec n} {a b : Word} {p q : Int}
    (g : Nat → Nat → Nat) (h : exec i s = s.setX rd (s.xlen.bin f a b) i) (hf : ∀ n x y, (f n x y).toNat = g x.toNat y.toNat)
    (ha : p = ((a.setWidth s.xlen.bits).toNat : Int)) (hb : q = ((b.setWidth s.xlen.bits).toNat : Int)) :
    ComputesX i s rd (g p.toNat q.toNat : Nat) :=
  computesX_bin h (by rw [hf, ha, hb, Int.toNat_natCast, Int.toNat_natCast])

section Shift

variable {b : Word} {k : Nat}

/-- A left shift of x[rs1] by the low bits of b, which are k. -/
theorem computesX_sll (h : exec i s = s.setX rd (s.xlen.bin aluSll (s.readX rs1) b) i)
    (hk : (b.setWidth s.xlen.bits).toNat % s.xlen.bits = k) : ComputesX i s rd (ux s rs1 * 2 ^ k) :=
  computesX_bin h (by rw [aluSll_toNat, hk, ux_eq, size, Int.emod_emod])

theorem computesX_srl (h : exec i s = s.setX rd (s.xlen.bin aluSrl (s.readX rs1) b) i)
    (hk : (b.setWidth s.xlen.bits).toNat % s.xlen.bits = k) : ComputesX i s rd (ux s rs1 / 2 ^ k) :=
  computesX_bin h (by rw [aluSrl_toNat, hk, ux_eq])

theorem computesX_sra (h : exec i s = s.setX rd (s.xlen.bin aluSra (s.readX rs1) b) i)
    (hk : (b.setWidth s.xlen.bits).toNat % s.xlen.bits = k) : ComputesX i s rd (sx s rs1 / 2 ^ k) :=
  computesX_bin h (by rw [aluSra_toNat, hk, sx_eq, size, Int.emod_emod])

/-- A shift amount in a register is its number modulo XLEN. -/
theorem shift_register (r : Reg) :
    ((s.readX r).setWidth s.xlen.bits).toNat % s.xlen.bits = (ux s r).toNat % s.xlen.bits := by
  rw [State.operand_toNat, ux, Int.toNat_natCast]

/-- A shift amount in a field is its number, if that is below XLEN. -/
theorem shift_field {n : Nat} (sh : BitVec n) (h : sh.toNat < s.xlen.bits) :
    ((sh.setWidth 64 : Word).setWidth s.xlen.bits).toNat % s.xlen.bits = sh.toNat := by
  have hb : sh.toNat < 2 ^ s.xlen.bits := h.trans Nat.lt_two_pow_self
  rw [BitVec.toNat_setWidth, BitVec.toNat_setWidth,
    Nat.mod_eq_of_lt (hb.trans_le (Nat.pow_le_pow_right (by omega) s.xlen.bits_le)), Nat.mod_eq_of_lt hb, Nat.mod_eq_of_lt h]

end Shift

/-- Settles O13: each row by its operation, on a register and an immediate at width XLEN. -/
theorem integerImmediateResults : Obligations.IntegerImmediateResults := by
  intro s rd rs1 imm up
  have hi : uimm s imm = _ := uimm_eq imm (by omega)
  refine ⟨computesX_of rfl ?lui, computesX_of rfl ?auipc, computesX_bin rfl ?addi, computesX_test rfl ?slti,
    computesX_test rfl ?sltiu, computesX_bitwise (· ^^^ ·) rfl aluXor_toNat (ux_eq rs1) hi,
    computesX_bitwise (· ||| ·) rfl aluOr_toNat (ux_eq rs1) hi, computesX_bitwise (· &&& ·) rfl aluAnd_toNat (ux_eq rs1) hi⟩
  case lui => rw [State.immU_toNat, size, Int.emod_emod]
  case auipc =>
    have hd : size s ∣ ((2 ^ 64 : Nat) : Int) := pow_dvd_pow (2 : Int) s.xlen.bits_le
    rw [BitVec.toNat_add, Int.natCast_emod, Int.emod_emod_of_dvd _ hd, Nat.cast_add, State.immU_toNat, size,
      Int.add_emod_emod]
  case addi =>
    rw [aluAdd_toNat, s.imm_toNat imm (by omega), ux_eq, size, Int.emod_emod, Int.add_emod_emod]
  case slti => rw [aluLt, s.imm_toInt imm (by omega), sx_eq]
  case sltiu => simp only [aluLtu, ux_eq, hi, Nat.cast_lt]

/-- Settles O14: each row by its operation, on two registers at width XLEN. -/
theorem integerRegisterResults : Obligations.IntegerRegisterResults := by
  intro s rd rs1 rs2
  refine ⟨computesX_bin rfl ?add, computesX_bin rfl ?sub, computesX_sll rfl (shift_register rs2), computesX_test rfl ?slt,
    computesX_test rfl ?sltu, computesX_bitwise (· ^^^ ·) rfl aluXor_toNat (ux_eq rs1) (ux_eq rs2),
    computesX_srl rfl (shift_register rs2), computesX_sra rfl (shift_register rs2),
    computesX_bitwise (· ||| ·) rfl aluOr_toNat (ux_eq rs1) (ux_eq rs2),
    computesX_bitwise (· &&& ·) rfl aluAnd_toNat (ux_eq rs1) (ux_eq rs2)⟩
  case add => rw [aluAdd_toNat, ux_eq, ux_eq, size, Int.emod_emod]
  case sub => rw [aluSub_toNat, ux_eq, ux_eq, size, Int.emod_emod]
  case slt => rw [aluLt, sx_eq, sx_eq]
  case sltu => simp only [aluLtu, ux_eq, Nat.cast_lt]

/-- Settles O15: the shift amount of each row is below its XLEN. -/
theorem shiftImmediateResults : Obligations.ShiftImmediateResults := by
  refine fun s rd rs1 sh5 sh6 => ⟨fun hx => ?_, fun hx => ?_⟩
  · have h5 := shift_field (s := s) sh5 (by rw [hx]; exact sh5.isLt)
    exact ⟨computesX_sll rfl h5, computesX_srl rfl h5, computesX_sra rfl h5⟩
  · have h6 := shift_field (s := s) sh6 (by rw [hx]; exact sh6.isLt)
    exact ⟨computesX_sll rfl h6, computesX_srl rfl h6, computesX_sra rfl h6⟩

end Sys2Proof.Machine
end

section
/-! SUPPORT. Jumps, branches, fences and the CSR instructions: results and frame (40_rv32i.md R202 to R209, R237, R238, R241 to
R246), and the example words of the family files. -/

namespace Sys2Proof.Machine

open Sys2Proof.Claims

variable {s t u : State} {i : Instr} {rd rs1 rs2 : Reg} {target : Word} {pc : Int}

/-! ### Jumps and branches -/

theorem targetStop_of (h : s.params.ext.c = true ∨ (target.toNat : Int) % 4 = 0) : s.targetStop target = none :=
  State.targetStop_eq_none.2 (h.imp_right (by omega))

/-- A jump to a target that C7 allows links and goes there. -/
theorem jumpsTo_jump (h : exec i s = s.jump rd target i) (hp : (target.toNat : Int) = pc % size s)
    (hc : s.params.ext.c = true ∨ pc % size s % 4 = 0) : JumpsTo i s rd (s.pc.toNat + 4) pc := by
  rw [State.jump, targetStop_of (hp ▸ hc)] at h
  exact jumpsTo_of h nextPc_mod_size (by rw [hp, Int.emod_emod])

/-- Clearing bit 0 rounds down to an even number. -/
theorem toNat_and_not_one (w : Word) : (w &&& ~~~(1 : Word)).toNat = w.toNat / 2 * 2 := by
  have h : w &&& ~~~(1 : Word) = w >>> 1 <<< 1 := by
    ext k hk
    rcases Nat.eq_zero_or_pos k with rfl | h0
    · simp
    · simp [-BitVec.reduceNot, show ¬k < 1 by omega, show 1 + (k - 1) = k by omega, BitVec.getElem_one, h0.ne',
        BitVec.getLsbD_eq_getElem hk]
  have := w.isLt
  rw [h, BitVec.toNat_shiftLeft, BitVec.toNat_ushiftRight, Nat.shiftLeft_eq, Nat.shiftRight_eq_div_pow]
  omega

/-- The target of JALR as a number: the sum modulo 2^XLEN with bit 0 cleared. -/
theorem indirectTarget_toNat (rs1 : Reg) (imm : BitVec 12) :
    ((s.indirectTarget rs1 imm).toNat : Int) = (ux s rs1 + imm.toInt) % size s / 2 * 2 := by
  have h : ((s.effAddr rs1 imm : Nat) : Int) = (ux s rs1 + imm.toInt) % size s := s.effAddr_eq rs1 imm
  rw [State.indirectTarget, toNat_and_not_one, ← h]
  push_cast
  rfl

/-- Settles O19: both are jumps, with the target of JAL and of JALR as numbers. -/
theorem jumpsLinkAndGo : Obligations.JumpsLinkAndGo := by
  refine fun s rd rs1 off imm => ⟨jumpsTo_jump rfl (s.pcTarget_toNat off (by omega)), fun hc => ?_⟩
  have hlt : (ux s rs1 + imm.toInt) % size s / 2 * 2 % size s = (ux s rs1 + imm.toInt) % size s / 2 * 2 := by
    have hpos : 0 < size s := by unfold size; positivity
    have h0 := Int.emod_nonneg (ux s rs1 + imm.toInt) hpos.ne'
    have h1 := Int.emod_lt_of_pos (ux s rs1 + imm.toInt) hpos
    exact Int.emod_eq_of_lt (by omega) (by omega)
  refine jumpsTo_jump rfl ?_ ?_ <;> rw [hlt]
  · exact indirectTarget_toNat rs1 imm
  · exact hc

/-- A branch goes to its target, which C7 allows, when it is taken, and on when it is not. -/
theorem branch_goes {b : Bool} {taken : Prop} {off : BitVec 13} (h : exec i s = s.branch b (s.pcTarget off) i)
    (hb : b = true ↔ taken) :
    (taken → (s.params.ext.c = true ∨ ((s.pc.toNat : Int) + off.toInt) % size s % 4 = 0) →
      JumpsTo i s 0 0 (s.pc.toNat + off.toInt)) ∧
    (¬taken → JumpsTo i s 0 0 (s.pc.toNat + 4)) := by
  have hp : ((s.pcTarget off).toNat : Int) = _ := s.pcTarget_toNat off (by omega)
  refine ⟨fun ht hc => ?_, fun ht => ?_⟩
  · rw [State.branch, if_pos (hb.2 ht), targetStop_of (hp ▸ hc)] at h
    exact jumpsTo_of_retireTo h (by rw [hp, size, Int.emod_emod])
  · rw [State.branch, if_neg (ht ∘ hb.1)] at h
    exact jumpsTo_of_retireTo h nextPc_mod_size

/-- The three tests of the branches, as relations of integers. -/
theorem test_aluEq_iff (a b : Reg) : s.xlen.test aluEq (s.readX a) (s.readX b) = true ↔ ux s a = ux s b := by
  rw [Xlen.test_eq, aluEq, decide_eq_true_iff, ux_eq, ux_eq, Nat.cast_inj, BitVec.toNat_inj]

theorem test_aluLt_iff (a b : Reg) : s.xlen.test aluLt (s.readX a) (s.readX b) = true ↔ sx s a < sx s b := by
  rw [Xlen.test_eq, aluLt, decide_eq_true_iff, sx_eq, sx_eq]

theorem test_aluLtu_iff (a b : Reg) : s.xlen.test aluLtu (s.readX a) (s.readX b) = true ↔ ux s a < ux s b := by
  rw [Xlen.test_eq, aluLtu, decide_eq_true_iff, ux_eq, ux_eq, Nat.cast_lt]

theorem not_test_iff {b : Bool} {p : Prop} (h : b = true ↔ p) : (!b) = true ↔ ¬p := by
  rw [← h, Bool.not_eq_true, Bool.not_eq_true']

/-- Settles O20: each branch by its test, BNE, BGE and BGEU by the negation of one. -/
theorem branchesGoOrFallThrough : Obligations.BranchesGoOrFallThrough := by
  rintro s rs1 rs2 off i taken (⟨rfl, h⟩ | ⟨rfl, h⟩ | ⟨rfl, h⟩ | ⟨rfl, h⟩ | ⟨rfl, h⟩ | ⟨rfl, h⟩)
  · exact branch_goes rfl ((test_aluEq_iff rs1 rs2).trans h.symm)
  · exact branch_goes rfl ((not_test_iff (test_aluEq_iff rs1 rs2)).trans h.symm)
  · exact branch_goes rfl ((test_aluLt_iff rs1 rs2).trans h.symm)
  · exact branch_goes rfl ((not_test_iff (test_aluLt_iff rs1 rs2)).trans (not_lt.trans h.symm))
  · exact branch_goes rfl ((test_aluLtu_iff rs1 rs2).trans h.symm)
  · exact branch_goes rfl ((not_test_iff (test_aluLtu_iff rs1 rs2)).trans (not_lt.trans h.symm))

/-! ### Fences -/

/-- An instruction with an empty row of the listings, retired, leaves every dependency set as it was. -/
theorem deps_retire_of_empty (h : Instr.listing false i = .empty) :
    (s.retire i).hart.deps = s.hart.deps ∧ (s.retire i).hart.ctrl = s.hart.ctrl := by
  simp only [State.retire, State.retireTo, Hart.advance, h]
  exact ⟨rfl, rfl⟩

/-- Settles O33: both retire and do nothing else, and their row of the listings is empty. -/
theorem fencesTouchNothing : Obligations.FencesTouchNothing := by
  rintro s fm pred succ rs1 rd imm i (rfl | rfl)
  all_goals
    refine ⟨jumpsTo_of_retireTo rfl nextPc_mod_size, fun t ht => ?_, fun a b => rfl⟩
    cases ht
    exact deps_retire_of_empty rfl

/-! ### CSR instructions -/

theorem readCsr_held {a : BitVec 12} (ha : a = 1 ∨ a = 2 ∨ a = 3) :
    ∃ old, s.readCsr a = some old ∧ old.toNat = csrOf a (fcsr s) := by
  have hff := s.hart.fflags.isLt
  rcases ha with rfl | rfl | rfl
  · refine ⟨_, s.readCsr_fflags, ?_⟩
    rw [toNat_container _ (by omega), csrOf, if_pos rfl, fcsr]
    omega
  · refine ⟨_, s.readCsr_frm, ?_⟩
    rw [toNat_container _ (by omega), csrOf, if_neg (by decide), if_pos rfl, fcsr]
    omega
  · refine ⟨_, s.readCsr_fcsr, ?_⟩
    rw [toNat_fcsr, csrOf, if_neg (by decide), if_neg (by decide), fcsr]

theorem readCsr_eq_none {a : BitVec 12} (h1 : a ≠ 1) (h2 : a ≠ 2) (h3 : a ≠ 3) : s.readCsr a = none := by
  rw [State.readCsr, if_neg h1, if_neg h2, if_neg h3]

/-- A CSR that is not held stops every row whose meaning is `csrOp` (60_exceptions.md R401 condition 3). -/
theorem csrStops_of {a : BitVec 12} {new : Word → Option Word} (h : exec i s = s.csrOp rd a new i)
    (hn : s.readCsr a = none) : exec i s = .fault .csrNotHeld := by
  rw [h, State.csrOp, hn]

/-- fcsr after a write through any of its three addresses. -/
theorem fcsr_writeCsr {a : BitVec 12} (ha : a = 1 ∨ a = 2 ∨ a = 3) (v : Word) :
    fcsr (s.writeCsr a v) = csrSet a (fcsr s) v.toNat := by
  have hff := s.hart.fflags.isLt
  rcases ha with rfl | rfl | rfl
  · rw [fcsr, (s.writeCsr_fflags v).1, (s.writeCsr_fflags v).2, BitVec.toNat_setWidth, csrSet, if_pos rfl, fcsr]
    omega
  · rw [fcsr, (s.writeCsr_frm v).1, (s.writeCsr_frm v).2, BitVec.toNat_setWidth, csrSet, if_neg (by decide), if_pos rfl, fcsr]
    omega
  · rw [fcsr, (s.writeCsr_fcsr v).1, (s.writeCsr_fcsr v).2, BitVec.toNat_setWidth, extract_toNat, csrSet, if_neg (by decide),
      if_neg (by decide)]
    omega

/-- State u is s, or s with a CSR written. -/
def CsrUpdate (s u : State) : Prop := u = s ∨ ∃ a v, u = s.writeCsr a v

/-- Writing a CSR, or none, changes nothing else. -/
theorem CsrUpdate.frame (h : CsrUpdate s u) :
    Unretired s u ∧ XKept s u ∧ FKept s u ∧ LrKept s u ∧ NoMemoryEffect s u := by
  obtain rfl | ⟨a, v, rfl⟩ := h
  · exact ⟨unretired_refl u, fun _ => rfl, fun _ => rfl, rfl, ⟨rfl, rfl, rfl⟩, ⟨rfl, fun _ => rfl⟩, rfl, rfl⟩
  · exact ⟨unretired_writeCsr a v, fun r => by simp, fun r => by simp, by simp [LrKept], ⟨by simp, by simp, by simp⟩,
      ⟨by simp, fun x => by simp⟩, by simp, by simp⟩

/-- fcsr once a CSR instruction has written the CSR at an address, where it writes one. -/
def fcsrAfter (s : State) (a : BitVec 12) : Option Word → Nat
  | none => fcsr s
  | some v => csrSet a (fcsr s) v.toNat

/-- A CSR instruction on a CSR that is held reads the old value, writes the CSR or not, and retires. -/
theorem csrOp_of_held {a : BitVec 12} {new : Word → Option Word} {old : Word} (ha : a = 1 ∨ a = 2 ∨ a = 3)
    (ho : s.readCsr a = some old) :
    ∃ u, CsrUpdate s u ∧ fcsr u = fcsrAfter s a (new old) ∧ s.csrOp rd a new i = .next ((u.writeX rd old).retire i) := by
  unfold State.csrOp
  rw [ho]
  cases hn : new old with
  | none => exact ⟨s, .inl rfl, rfl, by simp only [hn]⟩
  | some v => exact ⟨s.writeCsr a v, .inr ⟨a, v, rfl⟩, fcsr_writeCsr ha v, by simp only [hn]⟩

/-- A row whose meaning is `csrOp` runs on fflags, frm and fcsr. -/
theorem csrRuns_of {a : BitVec 12} {new : Word → Option Word} {v : Nat} (h : exec i s = s.csrOp rd a new i)
    (hv : ∀ old : Word, old.toNat = csrOf a (fcsr s) → fcsrAfter s a (new old) = v) : CsrRuns i s rd a v := by
  intro ha
  obtain ⟨old, ho, hold⟩ := readCsr_held (s := s) ha
  obtain ⟨u, hu, hf, hnext⟩ := csrOp_of_held (rd := rd) (i := i) (new := new) ha ho
  obtain ⟨hret, hx, hfk, hlr, ⟨hp, hfe, hot⟩, ⟨hm, hb⟩, hh, hd⟩ := hu.frame
  have hxlen : u.xlen = s.xlen := congrArg Params.xlen hp
  refine ⟨_, h.trans hnext, ?_, ?_, fun r => ?_, ?_, ⟨⟨?_, ?_, ?_⟩, ⟨?_, fun x => ?_⟩, ?_, ?_⟩,
    (unretired_writeX hret rd old).goesOn⟩
  · rw [← hold]
    exact xWritten_writeX rd old fun r => by simp only [State.retire_readX, State.readX_writeX, hxlen, hx r]
  · rw [← hv old hold, ← hf]
    simp [fcsr]
  · simp [hfk r]
  · simpa [LrKept] using hlr
  all_goals simp [hp, hfe, hot, hm, hb, hh, hd]

theorem toNat_and_not (t x : Word) : (t &&& ~~~x).toNat = Nat.ldiff t.toNat x.toNat := by
  apply Nat.eq_of_testBit_eq
  intro k
  rw [Nat.testBit_ldiff, BitVec.testBit_toNat, BitVec.testBit_toNat, BitVec.testBit_toNat, BitVec.getLsbD_and,
    BitVec.getLsbD_not]
  by_cases hk : k < 64
  · simp [hk]
  · simp [BitVec.getLsbD_of_ge t k (by omega)]

/-- The set forms write nothing when their field is zero. -/
theorem csrRuns_unless {a : BitVec 12} {c : Prop} [Decidable c] {g : Word → Word} {v : Nat}
    (h : exec i s = s.csrOp rd a (fun t => if c then none else some (g t)) i)
    (hv : ∀ old : Word, old.toNat = csrOf a (fcsr s) → (g old).toNat = v) :
    CsrRuns i s rd a (if c then fcsr s else csrSet a (fcsr s) v) :=
  csrRuns_of h fun old ho => by split_ifs <;> simp [fcsrAfter, hv old ho]

/-- CSRRW and CSRRWI write a value whatever the old one is. -/
theorem csrRuns_always {a : BitVec 12} {w : Word} (h : exec i s = s.csrOp rd a (fun _ => some w) i) :
    CsrRuns i s rd a (csrSet a (fcsr s) w.toNat) := csrRuns_of h fun _ _ => rfl

/-- Settles O32: each row by the value it gives to write; none goes on without its CSR. -/
theorem csrInstructions : Obligations.CsrInstructions := by
  refine fun s rd rs1 a u => ⟨csrRuns_always rfl, csrRuns_unless rfl ?rs, csrRuns_unless rfl ?rc,
    ?wi, csrRuns_unless rfl ?si, csrRuns_unless rfl ?ci, fun h1 h2 h3 => ?stop⟩
  case stop =>
    have hn := readCsr_eq_none (s := s) h1 h2 h3
    exact ⟨csrStops_of (new := fun _ => some (s.readX rs1)) rfl hn, csrStops_of rfl hn, csrStops_of rfl hn,
      csrStops_of (new := fun _ => some (u.setWidth 64)) rfl hn, csrStops_of rfl hn, csrStops_of rfl hn⟩
  case wi =>
    rw [← toNat_container u (by omega)]
    exact csrRuns_always rfl
  all_goals intro old ho
  case rs => rw [BitVec.toNat_or, ho]
  case rc => rw [toNat_and_not, ho]
  case si => rw [BitVec.toNat_or, ho, toNat_container u (by omega)]
  case ci => rw [toNat_and_not, ho, toNat_container u (by omega)]

/-! ### The example words -/

/-- The word of a well-formed instruction decodes to it. -/
theorem decode_of_encode {x : Xlen} {e : Ext} {w : BitVec 32} (hw : encode i = w) (hi : WellFormed x e i) :
    decode x e w = .ok i := hw ▸ decodeInvertsEncode x e i hi

/-- Settles O3: each word is the one its instruction encodes to. -/
theorem specWordsDecode : Obligations.SpecWordsDecode := by
  refine ⟨?_, ?_, ?_, ?_, ?_, ?_, ?_, ?_, ?_, ?_⟩ <;> exact decode_of_encode (by decide) ⟨rfl, rfl, rfl⟩

end Sys2Proof.Machine
end

section
/-! SUPPORT. The integer loads and stores: values, memory operations and frame (40_rv32i.md R210 to R217, 41_rv64i.md R250 to
R252; 20_memory.md R55, R58, R100). -/

namespace Sys2Proof.Machine

open Sys2Proof.Claims

variable {s t u : State} {i : Instr} {rd rs1 rs2 : Reg} {a n : Nat} {d : Bool} {an : Annot}

/-! ### Values and their bytes -/

/-- The value of at most eight bytes, as an integer. -/
theorem leValue_eq (bs : List Byte) (h : bs.length ≤ 8) : leValue bs = ((wordOf bs).toNat : Int) := by
  induction bs with
  | nil => rfl
  | cons b bs ih =>
    rw [List.length_cons] at h
    rw [leValue, ih (by omega), (wordOf_cons b bs (by omega)).1]
    push_cast
    rfl

theorem leByte_toNat (w : Word) (k : Nat) : leByte w.toNat k = w.extractLsb' (8 * k) 8 := by
  have h : (w.toNat : Int) / 256 ^ k = ((w.toNat / 2 ^ (8 * k) : Nat) : Int) := by
    rw [pow_mul]
    push_cast
    rfl
  apply BitVec.eq_of_toNat_eq
  rw [leByte, h, BitVec.ofInt_natCast, BitVec.toNat_ofNat, extract_toNat]

/-- The bytes a store writes are those of the value stored. -/
theorem leBytes_toNat (n : Nat) (w : Word) : leBytes n w.toNat = bytesOf n w := by
  apply List.ext_getElem?
  intro k
  by_cases hk : k < n
  · rw [bytesOf_getElem? w hk, leBytes, List.getElem?_map, List.getElem?_range hk, Option.map_some, leByte_toNat]
  · rw [List.getElem?_eq_none (by simp [leBytes]; omega), List.getElem?_eq_none (by simp; omega)]

/-- `sext_XLEN` of the n low bytes of a value, modulo 2^XLEN. -/
theorem signExtendBytes_mod_size (hn : n ≤ 8) (w : Word) :
    ((signExtendBytes s.xlen n w).toNat : Int) % size s = wrap (8 * n) w.toNat % size s := by
  rw [signExtendBytes, Xlen.sext_toNat _ _ (by omega), size, Int.emod_emod, BitVec.toInt_setWidth, wrap]

/-! ### The pieces of an access -/

theorem covers_components (mask : BitVec 7) (rest next start : Nat) (h : start < next) :
    Covers start (components mask rest next start) (next + rest) := by
  induction rest generalizing next start with
  | zero => exact ⟨rfl, by simp only; omega, by simp only [Covers]; omega⟩
  | succ rest ih =>
    rw [show next + (rest + 1) = next + 1 + rest by omega]
    unfold components
    split_ifs
    · refine ⟨rfl, by simp only; omega, ?_⟩
      rw [show start + (start, next - start).2 = next by simp only; omega]
      exact ih (next + 1) next (by omega)
    · exact ih (next + 1) start (by omega)

/-- The components of an access are pieces of it (20_memory.md R55, R57, R58). -/
theorem pieces_parts (hn : 0 < n) (a : Nat) (d : Bool) : Pieces s a n d (s.parts a n d).1 := by
  refine ⟨?_, fun ha hd => by rw [State.parts_aligned ha hd]⟩
  unfold State.parts
  split_ifs
  · simpa only [Nat.add_sub_cancel' (show 1 ≤ n by omega)] using covers_components s.draws.split.1 (n - 1) 1 0 (by omega)
  · exact ⟨rfl, hn, by simp [Covers]⟩

/-! ### Reading and writing memory -/

/-- Memory, the history and everything outside the hart are in t as they are in u. -/
def SameOutside (u t : State) : Prop :=
  t.params = u.params ∧ t.fetched = u.fetched ∧ t.others = u.others ∧ t.mem = u.mem ∧ t.history = u.history

theorem sameOutside_writeX_retire (rd : Reg) (v : Word) (i : Instr) : SameOutside u ((u.writeX rd v).retire i) := by
  simp [SameOutside]

theorem sameOutside_retire (i : Instr) : SameOutside u (u.retire i) := by simp [SameOutside]

theorem outsideKept_congr (h : SameOutside u t) (hk : OutsideKept s u) : OutsideKept s t := by
  obtain ⟨hp, hf, ho, -, -⟩ := h
  obtain ⟨kp, kf, ko⟩ := hk
  exact ⟨hp.trans kp, hf.trans kf, ho.trans ko⟩

theorem loadsFrom_afterRead (hn : 0 < n) : LoadsFrom s (s.afterRead a n d an) a n d an :=
  ⟨⟨rfl, rfl, rfl⟩, ⟨rfl, fun x => s.afterRead_byteAt a n d an x⟩, _,
    pieces_parts (s := { s with draws := (s.loaded a n).2 }) hn a d, s.afterRead_history a n d an⟩

theorem loadsFrom_congr (h : SameOutside u t) (hl : LoadsFrom s u a n d an) : LoadsFrom s t a n d an := by
  obtain ⟨hp, -, -, hm, hh⟩ := id h
  obtain ⟨ko, ⟨km, kb⟩, ps, hps, kh⟩ := hl
  exact ⟨outsideKept_congr h ko, ⟨hm.trans km, fun x => (State.byteAt_congr hm hp x).trans (kb x)⟩, ps, hps, hh.trans kh⟩

theorem storesTo_memWrite (hn : 0 < n) (w : Word) (sc : Option Nat) :
    StoresTo s (s.memWrite a (bytesOf n w) d an sc) a n w.toNat d an sc := by
  refine ⟨⟨rfl, rfl, rfl⟩, fun x => ?_, _, pieces_parts hn a d, ?_⟩
  · rw [State.byteAt_memWrite]
    simp only [bytesOf_length]
    split_ifs with hx
    · apply Option.some.inj
      rw [← List.getElem?_eq_getElem, bytesOf_getElem? w (by omega), leByte_toNat]
    · rfl
  · rw [leBytes_toNat, State.memWrite_history, bytesOf_length]
    rfl

theorem storesTo_congr {v : Int} {sc : Option Nat} (h : SameOutside u t) (hs : StoresTo s u a n v d an sc) :
    StoresTo s t a n v d an sc := by
  obtain ⟨hp, -, -, hm, hh⟩ := id h
  obtain ⟨ko, kb, ps, hps, kh⟩ := hs
  exact ⟨outsideKept_congr h ko, fun x => (State.byteAt_congr hm hp x).trans (kb x), ps, hps, hh.trans kh⟩

/-! ### Rows -/

theorem loadStop_of (ha : Allowed s a n) (hm : InMain s a n) : s.loadStop a n = none :=
  firstStop_eq_none.2 ⟨State.alignStop_eq_none.2 ha, State.regionStop_inMain hm⟩

theorem storeStop_of (ha : Allowed s a n) (hm : InMain s a n) (ht : NotText s a n) : s.storeStop a n = none :=
  firstStop_eq_none.2 ⟨State.alignStop_eq_none.2 ha,
    firstStop_eq_none.2 ⟨State.regionStop_inMain hm, State.textStop_eq_none.2 ht⟩⟩

/-- A row whose meaning is `loadX` with an extension that agrees with `v` modulo 2^XLEN. -/
theorem loadsX_of {imm : BitVec 12} {ext : Word → Word} {v : Int → Int} (hn : 0 < n ∧ n ≤ 8)
    (h : exec i s = s.loadX rd rs1 imm n ext i)
    (hv : ∀ w : Word, ((ext w).toNat : Int) % size s = v w.toNat % size s) : LoadsX i s rd rs1 imm n v := by
  intro ha hm
  rw [State.loadX, loadStop_of ha hm] at h
  refine ⟨_, h, xWritten_of_mod (w := ext (wordOf (s.memRead (s.effAddr rs1 imm) n))) (fun r => ?_) ?_,
    fun r => by simp, ⟨by simp, by simp⟩, by simp [LrKept], loadsFrom_congr (sameOutside_writeX_retire ..) (loadsFrom_afterRead hn.1),
    (unretired_writeX (unretired_afterRead ..) ..).goesOn⟩
  · simp only [State.retire_readX, State.readX_writeX, State.afterRead_readX, State.afterRead_xlen]
  · rw [leValue_eq _ (by rw [State.memRead_length]; exact hn.2), hv]

/-- A row whose meaning is `storeX`. -/
theorem storesFrom_of {imm : BitVec 12} (hn : 0 < n) (h : exec i s = s.storeX rs2 rs1 imm n i) :
    StoresFrom i s rs1 imm n (ux s rs2) false := by
  intro ha hm ht
  rw [State.storeX, storeStop_of ha hm ht] at h
  exact ⟨_, h, fun r => by simp, fun r => by simp, ⟨rfl, rfl⟩, rfl,
    storesTo_congr (sameOutside_retire i) (storesTo_memWrite hn _ none), (unretired_memWrite ..).goesOn⟩

/-- Settles O22: each load by its width and extension. -/
theorem loadsReadMemory : Obligations.LoadsReadMemory := by
  refine fun s rd rs1 imm => ⟨s.effAddr_eq rs1 imm, loadsX_of (by omega) rfl fun w => ?_, loadsX_of (by omega) rfl fun w => ?_,
    loadsX_of (by omega) rfl fun w => ?_, loadsX_of (by omega) rfl fun _ => rfl, loadsX_of (by omega) rfl fun _ => rfl,
    fun _ => ⟨loadsX_of (by omega) rfl fun _ => rfl, loadsX_of (by omega) rfl fun _ => rfl⟩⟩
  all_goals exact signExtendBytes_mod_size (by omega) w

/-- Settles O23: each store by its width. -/
theorem storesWriteMemory : Obligations.StoresWriteMemory :=
  fun s _ rs1 imm => ⟨s.effAddr_eq rs1 imm, storesFrom_of (by omega) rfl, storesFrom_of (by omega) rfl,
    storesFrom_of (by omega) rfl, fun _ => storesFrom_of (by omega) rfl⟩

end Sys2Proof.Machine
end

section
/-! SUPPORT. The RV64 word instructions: operations on the low 32 bits, with the result as a signed number
(41_rv64i.md R256 to R264). -/

namespace Sys2Proof.Machine

open Sys2Proof.Claims

variable {s : State} {i : Instr} {rd rs1 : Reg}

/-! ### Operands at width 32, as integers -/

theorem uw_eq (r : Reg) : uw s r = (((s.readX r).setWidth 32).toNat : Int) := by
  rw [uw, ux, BitVec.toNat_setWidth]
  push_cast
  rfl

theorem sw_eq (r : Reg) : sw s r = ((s.readX r).setWidth 32).toInt := by rw [sw, wrap, ux, BitVec.toInt_setWidth]

/-- The low 32 bits of an immediate are the immediate modulo 2^32, whatever XLEN is. -/
theorem imm_low32_toNat {n : Nat} (v : BitVec n) (h : n ≤ 64) :
    (((s.imm v).setWidth 32).toNat : Int) = v.toInt % 2 ^ 32 := by
  have hd : (2 : Int) ^ 32 ∣ 2 ^ s.xlen.bits := pow_dvd_pow 2 (by cases s.xlen <;> decide)
  have hi : ((s.imm v).toNat : Int) = v.toInt % 2 ^ s.xlen.bits := Xlen.sext_toNat s.xlen v h
  rw [BitVec.toNat_setWidth, Int.natCast_emod, hi]
  exact Int.emod_emod_of_dvd _ hd

/-- A word shift amount in a register is its number modulo 32. -/
theorem wordShift_register (r : Reg) : ((s.readX r).setWidth 32).toNat % 32 = (ux s r).toNat % 32 := by
  rw [BitVec.toNat_setWidth, Nat.mod_mod_of_dvd _ (by decide), ux, Int.toNat_natCast]

/-- A word shift amount in a field of five bits is its number. -/
theorem wordShift_field (sh : BitVec 5) : ((sh.setWidth 64 : Word).setWidth 32).toNat % 32 = sh.toNat := by
  have h : sh.toNat < 32 := sh.isLt
  rw [BitVec.toNat_setWidth, BitVec.toNat_setWidth]
  omega

/-- The value of 32 bits as a signed number, from a number that agrees with it modulo 2^32. -/
theorem toInt_eq_wrap {x : BitVec 32} {v : Int} (h : (x.toNat : Int) = v % 2 ^ 32) : x.toInt = wrap 32 v := by
  rw [BitVec.toInt_eq_toNat_bmod, h, wrap]
  exact_mod_cast Int.emod_bmod v (2 ^ 32)

theorem aluSra_toInt (n : Nat) (x y : BitVec n) : (aluSra n x y).toInt = x.toInt / 2 ^ (y.toNat % n) := by
  rw [aluSra, BitVec.toInt_sshiftRight, Int.shiftRight_eq_div_pow]
  push_cast
  rfl

/-! ### Rows -/

section Word

variable {f : BitVec 32 → BitVec 32 → BitVec 32} {a b : Word} {v : Int} {k : Nat}

/-- A row that computes a word operation gives its 32-bit result as a signed number. -/
theorem computesX_word (h : exec i s = s.setX rd (wordOp f a b) i) (hv : (f (a.setWidth 32) (b.setWidth 32)).toInt = v) :
    ComputesX i s rd v := by
  have hd : size s ∣ 2 ^ 64 := pow_dvd_pow (2 : Int) s.xlen.bits_le
  exact computesX_of h (by rw [wordOp_toNat, hv, Int.emod_emod_of_dvd _ hd])

/-- A row that computes a word operation, from a number that agrees with its result modulo 2^32. -/
theorem computesX_wordMod (h : exec i s = s.setX rd (wordOp f a b) i)
    (hv : ((f (a.setWidth 32) (b.setWidth 32)).toNat : Int) = v % 2 ^ 32) : ComputesX i s rd (wrap 32 v) :=
  computesX_word h (toInt_eq_wrap hv)

/-- A word addition of x[rs1] and a container that agrees with v modulo 2^32. -/
theorem computesX_addw (h : exec i s = s.setX rd (wordOp (aluAdd 32) (s.readX rs1) b) i)
    (hb : ((b.setWidth 32).toNat : Int) = v % 2 ^ 32) : ComputesX i s rd (wrap 32 (ux s rs1 + v)) :=
  computesX_wordMod h (by rw [aluAdd_toNat, hb, ← uw_eq, uw, ← Int.add_emod])

theorem computesX_sllw (h : exec i s = s.setX rd (wordOp (aluSll 32) (s.readX rs1) b) i)
    (hk : (b.setWidth 32).toNat % 32 = k) : ComputesX i s rd (wrap 32 (uw s rs1 * 2 ^ k)) :=
  computesX_wordMod h (by rw [aluSll_toNat, hk, uw_eq])

theorem computesX_srlw (h : exec i s = s.setX rd (wordOp (aluSrl 32) (s.readX rs1) b) i)
    (hk : (b.setWidth 32).toNat % 32 = k) : ComputesX i s rd (wrap 32 (uw s rs1 / 2 ^ k)) := by
  refine computesX_word h ?_
  rw [BitVec.toInt_eq_toNat_bmod, aluSrl_toNat, hk, uw_eq, wrap]

/-- An arithmetic shift of the low 32 bits stays in the range of a signed word: nothing wraps (R259, R264). -/
theorem computesX_sraw (h : exec i s = s.setX rd (wordOp (aluSra 32) (s.readX rs1) b) i)
    (hk : (b.setWidth 32).toNat % 32 = k) : ComputesX i s rd (sw s rs1 / 2 ^ k) :=
  computesX_word h (by rw [aluSra_toInt, hk, sw_eq])

end Word

/-- Settles O16: each row by its word operation, on x[rs1] and on x[rs2], the immediate or the shift amount. The low 32 bits of
these do not depend on XLEN, so that RV64 is not asked for. -/
theorem wordFormResults : Obligations.WordFormResults := by
  intro s rd rs1 rs2 imm sh _
  refine ⟨computesX_addw rfl (imm_low32_toNat imm (by omega)), computesX_sllw rfl (wordShift_field sh),
    computesX_srlw rfl (wordShift_field sh), computesX_sraw rfl (wordShift_field sh),
    computesX_addw rfl (uw_eq rs2).symm, computesX_wordMod rfl ?subw, computesX_sllw rfl (wordShift_register rs2),
    computesX_srlw rfl (wordShift_register rs2), computesX_sraw rfl (wordShift_register rs2)⟩
  case subw => rw [aluSub_toNat, ← uw_eq, ← uw_eq, uw, uw, ← Int.sub_emod]

end Sys2Proof.Machine
end

section
/-! SUPPORT. Multiplication and division: the operations at every width as integers, and the rows that use them at width XLEN
and at width 32 (42_m.md R270 to R282). -/

namespace Sys2Proof.Machine

open Sys2Proof.Claims

variable {s : State} {i : Instr} {rd : Reg}

/-! ### The operations at every width, as integers -/

section Alu

variable (n : Nat) (x y : BitVec n)

/-- The word an integer is stored in holds it modulo 2^n. -/
theorem toNat_ofInt_cast (v : Int) : ((BitVec.ofInt n v).toNat : Int) = v % 2 ^ n := by
  rw [BitVec.toNat_ofInt]
  push_cast
  exact Int.toNat_of_nonneg (Int.emod_nonneg v (by positivity))

/-- All ones is -1 modulo 2^n: what a division by zero gives (42_m.md R274, R275). -/
theorem allOnes_eq_ofInt : BitVec.allOnes n = BitVec.ofInt n (-1) := by
  rw [BitVec.ofInt_neg, ← BitVec.neg_one_eq_allOnes]
  rfl

/-- The divisor is the zero word exactly when it is the number zero. -/
theorem toNat_cast_eq_zero : (y.toNat : Int) = 0 ↔ y = 0 := by
  rw [Nat.cast_eq_zero, BitVec.toNat_eq, BitVec.ofNat_eq_ofNat, BitVec.toNat_zero]

theorem aluMul_toNat : ((aluMul n x y).toNat : Int) = x.toNat * y.toNat % 2 ^ n := by
  rw [aluMul, BitVec.toNat_mul]
  push_cast
  rfl

theorem aluMulh_toNat : ((aluMulh n x y).toNat : Int) = x.toInt * y.toInt / 2 ^ n % 2 ^ n := toNat_ofInt_cast ..

theorem aluMulhsu_toNat : ((aluMulhsu n x y).toNat : Int) = x.toInt * y.toNat / 2 ^ n % 2 ^ n := toNat_ofInt_cast ..

theorem aluMulhu_toNat : ((aluMulhu n x y).toNat : Int) = x.toNat * y.toNat / 2 ^ n % 2 ^ n := by
  rw [aluMulhu, BitVec.toNat_ofNat]
  push_cast
  rfl

/-- The overflowing quotient is 2^(n-1) as an integer, which is the dividend -2^(n-1) modulo 2^n (42_m.md R274). -/
theorem aluDiv_toNat :
    ((aluDiv n x y).toNat : Int) = (if (y.toNat : Int) = 0 then -1 else x.toInt.tdiv y.toInt) % 2 ^ n := by
  rw [aluDiv, allOnes_eq_ofInt, ← apply_ite (BitVec.ofInt n), toNat_ofInt_cast]
  simp only [toNat_cast_eq_zero]

theorem aluDivu_toNat :
    ((aluDivu n x y).toNat : Int) = (if (y.toNat : Int) = 0 then -1 else (x.toNat : Int) / y.toNat) % 2 ^ n := by
  simp only [aluDivu, toNat_cast_eq_zero]
  split
  · rw [allOnes_eq_ofInt, toNat_ofInt_cast]
  · rw [BitVec.toNat_ofNat]
    push_cast
    rfl

/-- The signed remainder is in the range of a signed number of n bits: nothing wraps (42_m.md R276). -/
theorem aluRem_toInt : (aluRem n x y).toInt = if (y.toNat : Int) = 0 then x.toInt else x.toInt.tmod y.toInt := by
  rw [aluRem, ← BitVec.toInt_srem, BitVec.ofInt_toInt, apply_ite BitVec.toInt]
  simp only [toNat_cast_eq_zero]

theorem aluRem_toNat :
    ((aluRem n x y).toNat : Int) = (if (y.toNat : Int) = 0 then (x.toNat : Int) else x.toInt.tmod y.toInt) % 2 ^ n := by
  simp only [aluRem, toNat_cast_eq_zero]
  split
  · exact_mod_cast (Nat.mod_eq_of_lt x.isLt).symm
  · exact toNat_ofInt_cast ..

/-- The unsigned remainder fits in n bits as it is (42_m.md R277). -/
theorem aluRemu_toNat :
    ((aluRemu n x y).toNat : Int) = if (y.toNat : Int) = 0 then (x.toNat : Int) else (x.toNat : Int) % y.toNat := by
  simp only [aluRemu, toNat_cast_eq_zero]
  split
  · rfl
  · rw [BitVec.toNat_ofNat, Nat.mod_eq_of_lt ((Nat.mod_le ..).trans_lt x.isLt)]
    push_cast
    rfl

end Alu

/-! ### Rows -/

/-- A row that computes a binary operation at width XLEN, from a number its result is the remainder of. -/
theorem computesX_binMod {f : (n : Nat) → BitVec n → BitVec n → BitVec n} {a b : Word} {v : Int}
    (h : exec i s = s.setX rd (s.xlen.bin f a b) i)
    (hv : ((f s.xlen.bits (a.setWidth s.xlen.bits) (b.setWidth s.xlen.bits)).toNat : Int) = v % 2 ^ s.xlen.bits) :
    ComputesX i s rd v :=
  computesX_bin h (by rw [hv, size, Int.emod_emod])

/-- A word quotient by zero is -1, which is a signed word; any other is taken as one (42_m.md R279, R280). -/
theorem computesX_wordQuotient {f : BitVec 32 → BitVec 32 → BitVec 32} {a b : Word} {p : Prop} [Decidable p] {q : Int}
    (h : exec i s = s.setX rd (wordOp f a b) i)
    (hv : ((f (a.setWidth 32) (b.setWidth 32)).toNat : Int) = (if p then -1 else q) % 2 ^ 32) :
    ComputesX i s rd (if p then -1 else wrap 32 q) := by
  have hw : wrap 32 (if p then -1 else q) = if p then -1 else wrap 32 q := apply_ite (wrap 32) p (-1) q
  rw [← hw]
  exact computesX_wordMod h hv

/-- Settles O17: each row by its product, on two registers at width XLEN. The low 32 bits of a product are those of the
product of the low 32 bits, whatever XLEN is, so that MULW does not ask for RV64. -/
theorem multiplyResults : Obligations.MultiplyResults := by
  intro s rd rs1 rs2
  refine ⟨computesX_binMod rfl ?mul, computesX_binMod rfl ?mulh, computesX_binMod rfl ?mulhsu, computesX_binMod rfl ?mulhu,
    fun _ => computesX_wordMod rfl ?mulw⟩
  case mul => rw [aluMul_toNat, ux_eq, ux_eq]
  case mulh => rw [aluMulh_toNat, sx_eq, sx_eq, size]
  case mulhsu => rw [aluMulhsu_toNat, sx_eq, ux_eq, size]
  case mulhu => rw [aluMulhu_toNat, ux_eq, ux_eq, size]
  case mulw => rw [aluMul_toNat, ← uw_eq, ← uw_eq, uw, uw, ← Int.mul_emod]

/-- Settles O18: each row by its quotient or remainder, on two registers at width XLEN or their low 32 bits, which do not
depend on XLEN. -/
theorem divideResults : Obligations.DivideResults := by
  intro s rd rs1 rs2
  refine ⟨computesX_binMod rfl ?div, computesX_binMod rfl ?divu, computesX_binMod rfl ?rem, computesX_bin rfl ?remu,
    fun _ => ⟨computesX_wordQuotient rfl ?divw, computesX_wordQuotient rfl ?divuw, computesX_word rfl ?remw,
      computesX_word rfl ?remuw⟩⟩
  case div => rw [aluDiv_toNat, ux_eq, sx_eq, sx_eq]
  case divu => rw [aluDivu_toNat, ux_eq, ux_eq]
  case rem => rw [aluRem_toNat, ux_eq, ux_eq, sx_eq, sx_eq]
  case remu => rw [aluRemu_toNat, ux_eq, ux_eq]
  case divw => rw [aluDiv_toNat, uw_eq, sw_eq, sw_eq]
  case divuw => rw [aluDivu_toNat, uw_eq, uw_eq]
  case remw => rw [aluRem_toInt, uw_eq, sw_eq, sw_eq]
  case remuw => rw [BitVec.toInt_eq_toNat_bmod, aluRemu_toNat, uw_eq, uw_eq, wrap]

end Sys2Proof.Machine
end

section
/-! SUPPORT. LR, SC that succeed, and AMOs: values, memory operations, pairing and frame (43_a.md R290 to R311; 20_memory.md
R55, R59, R60, R107). -/

namespace Sys2Proof.Machine

open Sys2Proof.Claims

variable {s u : State} {i : Instr} {rd rs1 rs2 : Reg} {a n : Nat} {aq rl : Bool} {an : Annot}

/-! ### In the middle of an instruction -/

theorem unretired_setLr (h : Unretired s u) (a n : Nat) : Unretired s (u.setLr a n) := by
  constructor <;> simp [h.params, h.id, h.pc, h.entry, h.len, h.ended, h.pos, h.stream, h.deps, h.ctrl]

theorem unretired_clearLr (h : Unretired s u) : Unretired s u.clearLr := by
  constructor <;> simp [h.params, h.id, h.pc, h.entry, h.len, h.ended, h.pos, h.stream, h.deps, h.ctrl]

theorem unretired_memAmo (a n : Nat) (g : Word → Word) (an : Annot) : Unretired s (s.memAmo a n g an) := by
  constructor <;> rfl

theorem unretired_drewSc_memWrite (a : Nat) (bs : List Byte) (an : Annot) (sc : Option Nat) :
    Unretired s (s.drewSc.memWrite a bs false an sc) := by
  constructor <;> rfl

/-- Retiring an SC logs it with its outcome and goes on at pc + 4. -/
theorem Unretired.goesOnSc (h : Unretired s u) (ok : Bool) : GoesOnSc i ok s (u.retireSc i ok) := by
  have hx : u.xlen = s.xlen := congrArg Params.xlen h.params
  have hpc : u.nextPc = s.nextPc := by simp only [State.nextPc, State.pc, hx, h.pc]
  refine ⟨?_, h.ended, h.id, h.entry, h.len, congrArg (· + 1) h.pos, congrArg (_ :: ·) h.stream, ?_⟩
  · rw [State.pc, State.retireSc_xlen, State.retireSc_hart_pc, hx, hpc, toNat_trunc_nextPc]
  · simp only [State.retireSc, Hart.advance, h.deps, h.ctrl, h.pos]

/-! ### Memory and what lies outside the hart -/

theorem SameOutside.trans {t : State} (h : SameOutside s u) (h' : SameOutside u t) : SameOutside s t := by
  obtain ⟨hp, hf, ho, hm, hh⟩ := h
  obtain ⟨kp, kf, ko, km, kh⟩ := h'
  exact ⟨kp.trans hp, kf.trans hf, ko.trans ho, km.trans hm, kh.trans hh⟩

theorem sameOutside_setLr (a n : Nat) : SameOutside u (u.setLr a n) := ⟨rfl, rfl, rfl, rfl, rfl⟩

theorem sameOutside_clearLr : SameOutside u u.clearLr := ⟨rfl, rfl, rfl, rfl, rfl⟩

theorem sameOutside_writeX_retireSc (rd : Reg) (v : Word) (i : Instr) (ok : Bool) :
    SameOutside u ((u.writeX rd v).retireSc i ok) := by simp [SameOutside]

/-! ### Bytes of integers that agree modulo 2^(8n) -/

theorem leByte_congr {v w : Int} {k : Nat} (h : v % 2 ^ (8 * n) = w % 2 ^ (8 * n)) (hk : k < n) : leByte v k = leByte w k := by
  obtain ⟨q, rfl⟩ := Int.modEq_iff_add_fac.1 h
  have hn : (2 : Int) ^ (8 * n) * q = 256 ^ k * (256 * (256 ^ (n - k - 1) * q)) := by
    rw [show n = k + (1 + (n - k - 1)) by omega, pow_mul, pow_add, pow_add]
    norm_num
    ring
  apply BitVec.eq_of_toNat_eq
  rw [leByte, leByte, BitVec.toNat_ofInt, BitVec.toNat_ofInt, hn, Int.add_mul_ediv_left _ _ (by positivity)]
  simp

theorem leBytes_congr {v w : Int} (h : v % 2 ^ (8 * n) = w % 2 ^ (8 * n)) : leBytes n v = leBytes n w :=
  List.map_congr_left fun _ hk => leByte_congr h (List.mem_range.1 hk)

/-- n bytes make a value below 2^(8n). -/
theorem wordOf_lt (bs : List Byte) (h : bs.length ≤ 8) : (wordOf bs).toNat < 2 ^ (8 * bs.length) := by
  cases bs with
  | nil => decide
  | cons b bs =>
    rw [List.length_cons] at h ⊢
    obtain ⟨hv, hl⟩ := wordOf_cons b bs (by omega)
    have hb := b.isLt
    rw [hv, Nat.mul_succ, pow_add]
    omega

/-- Writing to x[rd] the sign-extended value of the bytes an access returns. -/
theorem xWritten_loaded {t : State} (hn : n ≤ 8)
    (hr : ∀ r, t.readX r = (s.writeX rd (signExtendBytes s.xlen n (wordOf (s.memRead a n)))).readX r) :
    XWritten s t rd (wrap (8 * n) (leValue (s.memRead a n))) :=
  xWritten_of_mod hr (by rw [signExtendBytes_mod_size hn, leValue_eq _ ((s.memRead_length a n).trans_le hn)])

/-! ### LR -/

theorem lrStop_of (ha : a % n = 0) (hm : InMain s a n) : s.lrStop a n = none :=
  firstStop_eq_none.2 ⟨atomicStop_aligned ha, State.regionStop_inMain hm⟩

/-- Every row whose meaning is `loadReserved` of at most eight bytes is an LR. -/
theorem loadsReserved_of (hn : 0 < n ∧ n ≤ 8) (h : exec i s = s.loadReserved rd rs1 n (Annot.lr aq rl) i) :
    LoadsReserved i s rd rs1 n aq rl := by
  obtain ⟨hpos, hle⟩ := hn
  intro ha hm
  rw [State.loadReserved, State.atomicAddr, lrStop_of ha hm] at h
  refine ⟨_, h, xWritten_loaded hle fun r => ?_, fun r => by simp, ⟨by simp, by simp⟩, by simp,
    loadsFrom_congr ((sameOutside_setLr ..).trans (sameOutside_writeX_retire ..)) (loadsFrom_afterRead hpos),
    (unretired_writeX (unretired_setLr (unretired_afterRead ..) ..) ..).goesOn⟩
  simp only [State.retire_readX, State.readX_writeX, State.setLr_xlen, State.setLr_readX, State.afterRead_readX,
    State.afterRead_xlen]

/-- Settles O27: both rows are LRs, of 4 and of 8 bytes. -/
theorem loadReservedEffect : Obligations.LoadReservedEffect :=
  fun _ _ _ _ _ => ⟨loadsReserved_of (by omega) rfl, fun _ => loadsReserved_of (by omega) rfl⟩

/-! ### An SC that succeeds -/

/-- Drawing the outcome of an SC changes nothing its store depends on. -/
theorem storesTo_drewSc_memWrite (hn : 0 < n) (w : Word) (sc : Option Nat) :
    StoresTo s (s.drewSc.memWrite a (bytesOf n w) false an sc) a n w.toNat false an sc :=
  storesTo_memWrite (s := s.drewSc) hn w sc

/-- Every row whose meaning is `storeConditional` stores and is paired when it may succeed and draws success. -/
theorem scSucceeds_of (hn : 0 < n) (h : exec i s = s.storeConditional rd rs2 rs1 n (Annot.sc aq rl) i) :
    ScSucceeds i s rd rs2 rs1 n aq rl := by
  intro l ha hl hd hm ht
  have hlr : s.hart.lr.map LrRecord.inst = some l.inst := congrArg _ hl.1
  rw [State.storeConditional, State.atomicAddr, atomicStop_aligned ha, if_pos (scSucceeds_iff.2 ⟨⟨l, hl⟩, hd⟩),
    firstStop_eq_none.2 ⟨State.regionStop_inMain hm, State.textStop_eq_none.2 ht⟩, State.scSuccess, hlr] at h
  refine ⟨_, h, xWritten_writeX rd 0 fun r => ?_, fun r => by simp, ⟨by simp, by simp⟩, by simp,
    storesTo_congr (sameOutside_clearLr.trans (sameOutside_writeX_retireSc ..)) (storesTo_drewSc_memWrite hn _ _),
    (unretired_writeX (unretired_clearLr (unretired_drewSc_memWrite ..)) ..).goesOnSc true⟩
  simp only [State.retireSc_readX, State.readX_writeX, State.clearLr_xlen, State.clearLr_readX, State.memWrite_xlen,
    State.memWrite_readX, State.drewSc_xlen, State.drewSc_readX]

/-- Settles O28: both rows are SCs, of 4 and of 8 bytes. -/
theorem scSuccessEffect : Obligations.ScSuccessEffect :=
  fun _ _ _ _ _ _ => ⟨scSucceeds_of (by omega) rfl, fun _ => scSucceeds_of (by omega) rfl⟩

/-! ### The functions of the AMOs, as integers -/

/-- With second operand x, the function f of an AMO at width m is g modulo 2^m, on the loaded value as an unsigned number. -/
def AmoComputes (m : Nat) (f : (k : Nat) → BitVec k → BitVec k → BitVec k) (x : BitVec m) (g : Int → Int) : Prop :=
  ∀ t : BitVec m, ((f m t x).toNat : Int) % 2 ^ m = g t.toNat % 2 ^ m

section Functions

variable {m : Nat} {x : BitVec m} {v : Int}

/-- A function that is g on the signed result too is g modulo 2^m. -/
theorem toNat_mod_of_toInt {y : BitVec m} (h : y.toInt = v) : (y.toNat : Int) % 2 ^ m = v % 2 ^ m := by
  rw [← h, BitVec.toInt_eq_toNat_bmod]
  exact_mod_cast (Int.bmod_emod (x := y.toNat) (m := 2 ^ m)).symm

theorem amoComputes_swap (hx : v = x.toNat) : AmoComputes m amoSwap x fun _ => v := by
  intro t
  rw [hx, amoSwap]

theorem amoComputes_add (hx : v = x.toNat) : AmoComputes m amoAdd x (· + v) := by
  intro t
  rw [hx, amoAdd, BitVec.toNat_add]
  push_cast
  exact Int.emod_emod ..

/-- A function that is a function of the unsigned numbers. -/
theorem amoComputes_bitwise {f : (k : Nat) → BitVec k → BitVec k → BitVec k} (g : Nat → Nat → Nat)
    (hf : ∀ t : BitVec m, (f m t x).toNat = g t.toNat x.toNat) (hx : v = x.toNat) :
    AmoComputes m f x fun t => (g t.toNat v.toNat : Nat) := by
  intro t
  beta_reduce
  rw [hf, hx, Int.toNat_natCast, Int.toNat_natCast]

theorem amoComputes_min (hx : v = x.toInt) : AmoComputes m amoMin x fun t => min (wrap m t) v := by
  intro t
  refine toNat_mod_of_toInt ?_
  beta_reduce
  rw [hx, wrap, ← BitVec.toInt_eq_toNat_bmod, amoMin, apply_ite BitVec.toInt]
  split_ifs <;> omega

theorem amoComputes_max (hx : v = x.toInt) : AmoComputes m amoMax x fun t => max (wrap m t) v := by
  intro t
  refine toNat_mod_of_toInt ?_
  beta_reduce
  rw [hx, wrap, ← BitVec.toInt_eq_toNat_bmod, amoMax, apply_ite BitVec.toInt]
  split_ifs <;> omega

theorem amoComputes_minu (hx : v = x.toNat) : AmoComputes m amoMinu x (min · v) := by
  intro t
  beta_reduce
  rw [hx, amoMinu, apply_ite BitVec.toNat]
  congr 1
  split_ifs <;> omega

theorem amoComputes_maxu (hx : v = x.toNat) : AmoComputes m amoMaxu x (max · v) := by
  intro t
  beta_reduce
  rw [hx, amoMaxu, apply_ite BitVec.toNat]
  congr 1
  split_ifs <;> omega

end Functions

/-! ### AMOs -/

theorem amoStop_of (ha : a % n = 0) (hm : InMain s a n) (ht : NotText s a n) : s.amoStop a n = none :=
  firstStop_eq_none.2 ⟨atomicStop_aligned ha,
    firstStop_eq_none.2 ⟨State.regionStop_inMain hm, State.textStop_eq_none.2 ht⟩⟩

theorem exchanges_memAmo {g : Word → Word} {v : Int}
    (hv : ((g (wordOf (s.memRead a n))).toNat : Int) % 2 ^ (8 * n) = v % 2 ^ (8 * n)) :
    Exchanges s (s.memAmo a n g an) a n v an := by
  refine ⟨⟨rfl, rfl, rfl⟩, fun x => ?_, ?_⟩
  · rw [State.byteAt_memAmo]
    split_ifs with hx
    · apply Option.some.inj
      rw [← List.getElem?_eq_getElem, bytesOf_getElem? _ (by omega), ← leByte_toNat, leByte_congr hv (by omega)]
    · rfl
  · rw [← leBytes_congr hv, leBytes_toNat]
    rfl

theorem exchanges_congr {t : State} {v : Int} (h : SameOutside u t) (he : Exchanges s u a n v an) : Exchanges s t a n v an := by
  obtain ⟨hp, -, -, hm, hh⟩ := id h
  obtain ⟨ko, kb, kh⟩ := he
  exact ⟨outsideKept_congr h ko, fun x => (State.byteAt_congr hm hp x).trans (kb x), hh.trans kh⟩

/-- Every row whose meaning is `amoOp` of at most eight bytes is an AMO, with any g its function is modulo 2^(8n). -/
theorem amoRuns_of {f : Word → Word} {g : Int → Int} (hn : n ≤ 8) (h : exec i s = s.amoOp rd rs1 n f (Annot.amo aq rl) i)
    (hg : ∀ w : Word, w.toNat < 2 ^ (8 * n) → ((f w).toNat : Int) % 2 ^ (8 * n) = g w.toNat % 2 ^ (8 * n)) :
    AmoRuns i s rd rs1 n aq rl g := by
  intro ha hm ht
  have hlen := s.memRead_length (s.readX rs1).toNat n
  have hv := leValue_eq (s.memRead (s.readX rs1).toNat n) (hlen.trans_le hn)
  have hlt := wordOf_lt (s.memRead (s.readX rs1).toNat n) (hlen.trans_le hn)
  rw [hlen] at hlt
  rw [State.amoOp, State.atomicAddr, amoStop_of ha hm ht] at h
  refine ⟨_, h, xWritten_loaded hn fun r => ?_, fun r => by simp, ⟨by simp, by simp⟩, by simp [LrKept],
    exchanges_congr (sameOutside_writeX_retire ..) (exchanges_memAmo ?stored),
    (unretired_writeX (unretired_memAmo ..) ..).goesOn⟩
  case stored => rw [hg _ hlt, hv]
  simp only [State.retire_readX, State.readX_writeX, State.memAmo_xlen, State.memAmo_readX]

variable {f : (k : Nat) → BitVec k → BitVec k → BitVec k} {g : Int → Int}

/-- A `.W` AMO computes on the low 32 bits of x[rs2]. -/
theorem amoRuns_word (h : exec i s = s.amoOp rd rs1 4 (amoFun32 f (s.readX rs2)) (Annot.amo aq rl) i)
    (hg : AmoComputes 32 f ((s.readX rs2).setWidth 32) g) : AmoRuns i s rd rs1 4 aq rl g := by
  refine amoRuns_of (by omega) h fun w hw => ?_
  have hf := hg (w.setWidth 32)
  rw [BitVec.toNat_setWidth, Nat.mod_eq_of_lt hw] at hf
  rw [amoFun32, BitVec.toNat_setWidth_of_le (by omega)]
  exact hf

/-- A `.D` AMO computes on x[rs2]. -/
theorem amoRuns_double (h : exec i s = s.amoOp rd rs1 8 (amoFun64 f (s.readX rs2)) (Annot.amo aq rl) i)
    (hg : AmoComputes 64 f (s.readX rs2) g) : AmoRuns i s rd rs1 8 aq rl g :=
  amoRuns_of (by omega) h fun w _ => hg w

/-- Settles O30: each row by its function, on x[rs2] as an unsigned or signed number of the row's width. -/
theorem amoEffects : Obligations.AmoEffects := by
  intro s rd rs2 rs1 aq rl
  have hu := uw_eq (s := s) rs2
  have hs := sw_eq (s := s) rs2
  refine ⟨amoRuns_word rfl (amoComputes_swap hu), amoRuns_word rfl (amoComputes_add hu),
    amoRuns_word rfl (amoComputes_bitwise (· ^^^ ·) (fun _ => BitVec.toNat_xor ..) hu),
    amoRuns_word rfl (amoComputes_bitwise (· &&& ·) (fun _ => BitVec.toNat_and ..) hu),
    amoRuns_word rfl (amoComputes_bitwise (· ||| ·) (fun _ => BitVec.toNat_or ..) hu),
    amoRuns_word rfl (amoComputes_min hs), amoRuns_word rfl (amoComputes_max hs),
    amoRuns_word rfl (amoComputes_minu hu), amoRuns_word rfl (amoComputes_maxu hu), fun hx => ?_⟩
  have hu64 : ux s rs2 = (s.readX rs2).toNat := rfl
  have hs64 : sx s rs2 = (s.readX rs2).toInt := by rw [sx, hx, BitVec.toInt_eq_toNat_bmod]; rfl
  exact ⟨amoRuns_double rfl (amoComputes_swap hu64), amoRuns_double rfl (amoComputes_add hu64),
    amoRuns_double rfl (amoComputes_bitwise (· ^^^ ·) (fun _ => BitVec.toNat_xor ..) hu64),
    amoRuns_double rfl (amoComputes_bitwise (· &&& ·) (fun _ => BitVec.toNat_and ..) hu64),
    amoRuns_double rfl (amoComputes_bitwise (· ||| ·) (fun _ => BitVec.toNat_or ..) hu64),
    amoRuns_double rfl (amoComputes_min hs64), amoRuns_double rfl (amoComputes_max hs64),
    amoRuns_double rfl (amoComputes_minu hu64), amoRuns_double rfl (amoComputes_maxu hu64)⟩

end Sys2Proof.Machine
end

section
/-! SUPPORT. The floating-point registers: boxing (44_f.md header), the rows that write f[rd], or x[rd] with flags, and the loads
and stores (44_f.md R320 to R349). -/

namespace Sys2Proof.Machine

open Sys2Proof.Claims

variable {s t u : State} {i : Instr} {rd rs1 rs2 : Reg} {cell raised : FlagBits}

/-! ### Boxing -/

theorem nanbox_toNat (v : BitVec 32) : (nanbox v).toNat = 2 ^ 64 - 2 ^ 32 + v.toNat := by
  have hv := v.isLt
  rw [nanbox, append_toNat, BitVec.toNat_allOnes]
  omega

theorem boxed_mod (s : State) (v : Nat) : boxed s (v % 2 ^ 32) = boxed s v := by rw [boxed, boxed, Nat.mod_mod]

/-- What a register of FLEN bits keeps of a boxed pattern. -/
theorem truncF_nanbox (s : State) (v : BitVec 32) : ((s.truncF (nanbox v)).toNat : Int) = boxed s v.toNat := by
  have hv := v.isLt
  rw [State.truncF_toNat, nanbox_toNat, boxed]
  split_ifs <;> omega

theorem truncF_nanbox_ofNat (s : State) (v : Nat) : ((s.truncF (nanbox (BitVec.ofNat 32 v))).toNat : Int) = boxed s v := by
  rw [truncF_nanbox, BitVec.toNat_ofNat, boxed_mod]

theorem truncF_nanbox_setWidth (s : State) (w : Word) :
    ((s.truncF (nanbox (w.setWidth 32))).toNat : Int) = boxed s w.toNat := by
  rw [truncF_nanbox, BitVec.toNat_setWidth, boxed_mod]

theorem truncF_of_d (hd : s.params.ext.d = true) (w : Word) : s.truncF w = w := if_pos hd

theorem State.readF_lt (s : State) (r : Reg) : (s.readF r).toNat < 2 ^ (if s.params.ext.d = true then 64 else 32) := by
  rw [State.readF, State.truncF_toNat]
  exact Nat.mod_lt _ (Nat.two_pow_pos _)

/-- A single-precision operand is the canonical NaN if the register is wider and not boxed, else its low 32 bits. -/
theorem State.readS_eq (s : State) (r : Reg) : s.readS r =
    if s.params.ext.d = true ∧ (s.readF r).toNat / 2 ^ 32 ≠ 2 ^ 32 - 1 then 0x7FC00000 else (s.readF r).toNat % 2 ^ 32 := by
  have hw : ((s.readF r).setWidth 32).toNat = (s.readF r).toNat % 2 ^ 32 := BitVec.toNat_setWidth ..
  have hb : (s.readF r).extractLsb' 32 32 = BitVec.allOnes 32 ↔ (s.readF r).toNat / 2 ^ 32 = 2 ^ 32 - 1 := by
    have := (s.readF r).isLt
    rw [← BitVec.toNat_inj, extract_toNat, BitVec.toNat_allOnes]
    omega
  unfold State.readS State.wideF
  by_cases hd : s.params.ext.d = true
  · by_cases hx : (s.readF r).toNat / 2 ^ 32 = 2 ^ 32 - 1
    · rw [if_pos hd, if_pos (hb.2 hx), if_neg (fun h => h.2 hx), hw]
    · rw [if_pos hd, if_neg (mt hb.1 hx), if_pos ⟨hd, hx⟩]
      rfl
  · rw [if_neg hd, if_neg (fun h => hd h.1), hw]

theorem State.readS_lt (s : State) (r : Reg) : s.readS r < 2 ^ 32 := by
  rw [State.readS_eq]
  split_ifs <;> omega

theorem readF_writeS_same (s : State) (r : Reg) (v : Nat) : (((s.writeS r v).readF r).toNat : Int) = boxed s v := by
  rw [State.writeS, State.readF_writeF, if_pos rfl, truncF_nanbox_ofNat]

/-- Settles O41: the pattern written, and what is read of any pattern, as numbers. -/
theorem nanBoxing : Obligations.NanBoxing := by
  refine fun s r v => ⟨?_, readF_writeS_same s r v, fun hd => ⟨fun h => ?_, fun h => ?_⟩, fun hd => ?_⟩
  · have hb := readF_writeS_same s r v
    rw [State.readS_eq, State.writeS_params]
    by_cases hd : s.params.ext.d = true
    · rw [boxed, if_pos hd] at hb
      rw [if_neg fun hx => hx.2 (by omega)]
      omega
    · rw [boxed, if_neg hd] at hb
      rw [if_neg fun hx => hd hx.1]
      omega
  · rw [State.readS_eq, if_neg fun hx => hx.2 h]
  · rw [State.readS_eq, if_pos ⟨hd, h⟩]
  · have hlt := s.readF_lt r
    rw [hd, if_neg (by decide)] at hlt
    rw [State.readS_eq, if_neg (by simp [hd]), Nat.mod_eq_of_lt hlt]

/-! ### In the middle of an instruction -/

theorem unretired_writeF (h : Unretired s u) (rd : Reg) (v : Word) : Unretired s (u.writeF rd v) := by
  constructor <;> simp [h.params, h.id, h.pc, h.entry, h.len, h.ended, h.pos, h.stream, h.deps, h.ctrl]

theorem unretired_accrue (h : Unretired s u) (cell raised : FlagBits) : Unretired s (u.accrue cell raised) := by
  constructor <;> simp [h.params, h.id, h.pc, h.entry, h.len, h.ended, h.pos, h.stream, h.deps, h.ctrl]

theorem State.accrue_zero (s : State) : s.accrue 0 0 = s := by simp [State.accrue]

/-! ### Rows that write f[rd] -/

/-- Writing f[rd] changes that register only. -/
theorem fWritten_writeF {w : Word} {v : Int} (hr : ∀ r, t.readF r = (s.writeF rd w).readF r)
    (hv : ((s.truncF w).toNat : Int) = v) : FWritten s t rd v := by
  intro r
  rw [hr, State.readF_writeF, ← hv]
  split_ifs <;> rfl

/-- An instruction that writes f[rd], accrues flags and retires does nothing else. -/
theorem computesF_of {w : Word} {v : Int} (h : exec i s = .next (((s.writeF rd w).accrue cell raised).retire i))
    (hv : ((s.truncF w).toNat : Int) = v) : ComputesF i s rd v cell raised :=
  ⟨_, h, fWritten_writeF (fun r => by simp) hv, ⟨by simp, by simp⟩, fun r => by simp, by simp [LrKept],
    ⟨⟨by simp, by simp, by simp⟩, ⟨by simp, fun x => by simp⟩, by simp, by simp⟩,
    (unretired_accrue (unretired_writeF (unretired_refl s) ..) ..).goesOn⟩

/-- A move into f[rd] accrues nothing. -/
theorem computesF_move {w : Word} {v : Int} (h : exec i s = .next ((s.writeF rd w).retire i))
    (hv : ((s.truncF w).toNat : Int) = v) : ComputesF i s rd v 0 0 :=
  computesF_of (h.trans (by rw [State.accrue_zero])) hv

theorem computesS_of {r : FpResult} (h : exec i s = s.setS rd cell r i) : ComputesS i s rd cell r :=
  computesF_of h (truncF_nanbox_ofNat s r.1)

theorem computesD_of {r : FpResult} (hd : s.params.ext.d = true) (h : exec i s = s.setD rd cell r i) :
    ComputesD i s rd cell r :=
  computesF_of h (by rw [truncF_of_d hd, BitVec.toNat_ofNat])

/-- A row with a rounding mode that is not reserved computes its result in that mode. -/
theorem computesS_rounded {rm : BitVec 3} {r : RoundMode} {k : RoundMode → Result} {res : FpResult}
    (hr : s.rounding rm = some r) (h : exec i s = s.withRounding rm k) (hk : k r = s.setS rd cell res i) :
    ComputesS i s rd cell res :=
  computesS_of (h.trans ((State.withRounding_of_some hr).trans hk))

theorem sx_of_rv64 (hx : s.xlen = .rv64) (r : Reg) : sx s r = (s.readX r).toInt := by
  rw [sx, hx, BitVec.toInt_eq_toNat_bmod]
  rfl

/-- Settles O35: each row by its result; an integer operand is the low 32 bits or all of x[rs1], signed or not. -/
theorem singleArithmetic : Obligations.SingleArithmetic := by
  intro s rd rs1 rs2 rs3 rm r hr
  rw [sw_eq, uw_eq]
  refine ⟨computesS_rounded hr rfl rfl, computesS_rounded hr rfl rfl, computesS_rounded hr rfl rfl, computesS_rounded hr rfl rfl,
    computesS_rounded hr rfl rfl, computesS_rounded hr rfl rfl, computesS_rounded hr rfl rfl, computesS_rounded hr rfl rfl,
    computesS_rounded hr rfl rfl, computesS_rounded hr rfl rfl, computesS_rounded hr rfl rfl, fun hx => ?_⟩
  rw [sx_of_rv64 hx]
  exact ⟨computesS_rounded hr rfl rfl, computesS_rounded hr rfl rfl⟩

/-! ### Sign injection, minimum, maximum and moves -/

section Sign

variable {f : Fmt} {a b : Nat}

theorem Fmt.setSign_eq (f : Fmt) (neg : Bool) (a : Nat) : f.setSign neg a = a % f.signBit + neg.toNat * f.signBit := by
  cases neg <;> simp [Fmt.setSign, Fmt.withSign]

theorem Fmt.setSign_lt (f : Fmt) (neg : Bool) (a : Nat) : f.setSign neg a < 2 * f.signBit := by
  have hm : a % f.signBit < f.signBit := Nat.mod_lt _ (Nat.two_pow_pos _)
  rw [f.setSign_eq]
  cases neg <;> simp only [Bool.toNat_false, Bool.toNat_true] <;> omega

/-- The sign of a pattern of the width of the format, as a number. -/
theorem Fmt.neg_toNat (hb : b < 2 * f.signBit) : (f.neg b).toNat = b / f.signBit := by
  have hq : b / f.signBit < 2 := (Nat.div_lt_iff_lt_mul (Nat.two_pow_pos _)).2 hb
  unfold Fmt.neg
  generalize b / f.signBit = q at hq ⊢
  obtain h | h : q = 0 ∨ q = 1 := by omega
  all_goals rw [h]; rfl

theorem toNat_not (m : Bool) : (!m).toNat = 1 - m.toNat := by cases m <;> rfl

theorem toNat_bne (m n : Bool) : (m != n).toNat = (m.toNat + n.toNat) % 2 := by cases m <;> cases n <;> rfl

/-- The three sign injections (44_f.md R331 to R333), as numbers. -/
theorem Fmt.setSign_injections (ha : a < 2 * f.signBit) (hb : b < 2 * f.signBit) :
    f.setSign (f.neg b) a = a % f.signBit + b / f.signBit * f.signBit ∧
    f.setSign (!f.neg b) a = a % f.signBit + (1 - b / f.signBit) * f.signBit ∧
    f.setSign (f.neg a != f.neg b) a = a % f.signBit + (a / f.signBit + b / f.signBit) % 2 * f.signBit := by
  simp only [f.setSign_eq, toNat_not, toNat_bne, Fmt.neg_toNat ha, Fmt.neg_toNat hb, and_self]

end Sign

/-- A single-precision row whose result is a pattern with a sign. -/
theorem computesF_signS {neg : Bool} {a v : Nat} (h : exec i s = s.setS rd 0 (Fmt.single.setSign neg a, 0) i)
    (hv : Fmt.single.setSign neg a = v) : ComputesF i s rd (boxed s v) 0 0 :=
  computesF_of h (by rw [truncF_nanbox_ofNat, hv])

theorem computesF_signD {neg : Bool} {a v : Nat} (hd : s.params.ext.d = true)
    (h : exec i s = s.setD rd 0 (Fmt.double.setSign neg a, 0) i) (hv : Fmt.double.setSign neg a = v) :
    ComputesF i s rd v 0 0 := by
  have hlt := Fmt.double.setSign_lt neg a
  rw [hv] at hlt
  exact computesF_of h (by rw [truncF_of_d hd, BitVec.toNat_ofNat, hv]; exact_mod_cast Nat.mod_eq_of_lt hlt)

/-- Settles O37: sign injection as numbers, the others by their result. -/
theorem signMinMaxAndMoves : Obligations.SignMinMaxAndMoves := by
  intro s rd rs1 rs2
  obtain ⟨hj, hn, hx⟩ := Fmt.setSign_injections (f := .single) (s.readS_lt rs1) (s.readS_lt rs2)
  refine ⟨computesF_signS rfl hj, computesF_signS rfl hn, computesF_signS rfl hx, computesS_of rfl, computesS_of rfl,
    computesF_move rfl (truncF_nanbox_setWidth ..), fun hd => ?_⟩
  obtain ⟨kj, kn, kx⟩ := Fmt.setSign_injections (f := .double) (s.readF rs1).isLt (s.readF rs2).isLt
  exact ⟨computesF_signD hd rfl kj, computesF_signD hd rfl kn, computesF_signD hd rfl kx, computesD_of hd rfl,
    computesD_of hd rfl, fun _ => computesF_move rfl (by rw [truncF_of_d hd]; rfl)⟩

/-! ### Rows that write x[rd] and accrue flags -/

/-- An instruction whose meaning is `setXF` computes every integer that agrees with the value modulo 2^XLEN. -/
theorem computesXF_of {w : Word} {v : Int} (h : exec i s = s.setXF rd cell w raised i)
    (hv : (w.toNat : Int) % size s = v % size s) : ComputesXF i s rd v cell raised :=
  ⟨_, h, xWritten_of_mod (w := w) (fun r => by simp) hv, ⟨by simp, by simp⟩, fun r => by simp, by simp [LrKept],
    ⟨⟨by simp, by simp, by simp⟩, ⟨by simp, fun x => by simp⟩, by simp, by simp⟩,
    (unretired_accrue (unretired_writeX (unretired_refl s) ..) ..).goesOn⟩

theorem computesXF_bool {b : Bool} (h : exec i s = s.setXF rd cell (boolWord b) raised i) :
    ComputesXF i s rd (bit (b = true)) cell raised :=
  computesXF_of h (by rw [boolWord_toNat, bit]; push_cast; rfl)

theorem Fmt.classBit_le (f : Fmt) (a : Nat) : f.classBit a ≤ 9 := by
  unfold Fmt.classBit
  split <;> split_ifs <;> omega

theorem computesX_class {f : Fmt} {a : Nat} (h : exec i s = s.setX rd (BitVec.ofNat 64 (2 ^ f.classBit a)) i) :
    ComputesX i s rd (2 ^ f.classBit a) := by
  have hlt : 2 ^ f.classBit a < 2 ^ 64 := Nat.pow_lt_pow_right (by omega) (by have := f.classBit_le a; omega)
  exact computesX_of h (by rw [BitVec.toNat_ofNat, Nat.mod_eq_of_lt hlt]; push_cast; rfl)

/-- Settles O38: comparisons by their truth value, classes and moves by the value written. -/
theorem compareClassifyAndMoves : Obligations.CompareClassifyAndMoves := by
  refine fun s rd rs1 rs2 => ⟨computesXF_bool rfl, computesXF_bool rfl, computesXF_bool rfl, computesX_class rfl,
    computesX_of rfl ?move, fun _ => ⟨computesXF_bool rfl, computesXF_bool rfl, computesXF_bool rfl, computesX_class rfl,
      fun _ => computesX_of rfl rfl⟩⟩
  case move => rw [Xlen.sext_toNat _ _ (by omega), size, Int.emod_emod, BitVec.toInt_setWidth, wrap]

/-! ### Loads and stores -/

variable {n : Nat} {imm : BitVec 12} {d : Bool}

theorem sameOutside_writeF_retire (rd : Reg) (v : Word) (i : Instr) : SameOutside u ((u.writeF rd v).retire i) := by
  simp [SameOutside]

/-- A row whose meaning is `loadF` of at most eight bytes. -/
theorem loadsF_of {box : Word → Word} {v : Int → Int} (hn : 0 < n ∧ n ≤ 8) (h : exec i s = s.loadF rd rs1 imm n box d i)
    (hv : ∀ w : Word, ((s.truncF (box w)).toNat : Int) = v w.toNat) : LoadsF i s rd rs1 imm n v d := by
  intro ha hm
  rw [State.loadF, loadStop_of ha hm] at h
  refine ⟨_, h, fWritten_writeF (w := box (wordOf (s.memRead (s.effAddr rs1 imm) n))) (fun r => ?_) ?_, fun r => by simp,
    ⟨by simp, by simp⟩, by simp [LrKept], loadsFrom_congr (sameOutside_writeF_retire ..) (loadsFrom_afterRead hn.1),
    (unretired_writeF (unretired_afterRead ..) ..).goesOn⟩
  · simp only [State.retire_readF, State.readF_writeF, State.afterRead_readF]
    rfl
  · rw [leValue_eq _ (by rw [State.memRead_length]; exact hn.2), hv]

/-- A row whose meaning is `storeF`. -/
theorem storesFrom_storeF (hn : 0 < n) (h : exec i s = s.storeF rs2 rs1 imm n d i) :
    StoresFrom i s rs1 imm n (s.readF rs2).toNat d := by
  intro ha hm ht
  rw [State.storeF, storeStop_of ha hm ht] at h
  exact ⟨_, h, fun r => by simp, fun r => by simp, ⟨rfl, rfl⟩, rfl,
    storesTo_congr (sameOutside_retire i) (storesTo_memWrite hn _ none), (unretired_memWrite ..).goesOn⟩

/-- Settles O24: each row by its width; FLW boxes what it loads, FLD does not. -/
theorem floatLoadsAndStores : Obligations.FloatLoadsAndStores := by
  refine fun s rd rs2 rs1 imm => ⟨loadsF_of (box := fun w => nanbox (w.setWidth 32)) (by omega) rfl fun w => ?_,
    storesFrom_storeF (by omega) rfl, fun hd =>
      ⟨loadsF_of (by omega) rfl fun w => ?_, storesFrom_storeF (by omega) rfl⟩⟩
  · rw [truncF_nanbox_setWidth, Int.toNat_natCast]
  · rw [id, truncF_of_d hd, id]

end Sys2Proof.Machine
end

section
/-! SUPPORT. What the patterns of a format stand for, and the arithmetic operations on NaNs and infinities (44_f.md R322 to R330,
R339 to R341; IEEE 754-2008, log 14). -/

namespace Sys2Proof.Machine

open Sys2Proof.Claims

variable {f g : Fmt} {r : RoundMode} {a b c : Nat} {x y z : Datum} {n : Bool}

/-! ### Data -/

/-- The sign of a datum; a NaN has none. -/
def Datum.negative : Datum → Bool
  | .nan _ => false
  | .inf n => n
  | .fin n _ _ => n

/-- The datum with its sign changed or not. -/
def Datum.signed (change : Bool) (x : Datum) : Datum := cond change x.negate x

/-- It is an infinity. -/
def Datum.IsInf (x : Datum) : Prop := ∃ n, x = .inf n

/-- It is a zero. -/
def Datum.IsZero (x : Datum) : Prop := ∃ n e, x = .fin n 0 e

@[simp] theorem Datum.isNan_negate (x : Datum) : x.negate.isNan = x.isNan := by cases x <;> rfl

@[simp] theorem Datum.isSignaling_negate (x : Datum) : x.negate.isSignaling = x.isSignaling := by cases x <;> rfl

@[simp] theorem Datum.isNan_signed (p : Bool) (x : Datum) : (x.signed p).isNan = x.isNan := by cases p <;> simp [signed]

@[simp] theorem Datum.isSignaling_signed (p : Bool) (x : Datum) : (x.signed p).isSignaling = x.isSignaling := by
  cases p <;> simp [signed]

theorem Datum.negative_signed (p : Bool) (h : x.isNan = false) : (x.signed p).negative = cond p (!x.negative) x.negative := by
  cases p
  · rfl
  · cases x with
    | nan => cases h
    | inf | fin => rfl

theorem Datum.isInf_signed (p : Bool) (x : Datum) : (x.signed p).IsInf ↔ x.IsInf := by
  cases p <;> cases x <;> simp [signed, negate, IsInf]

theorem Datum.isZero_signed (p : Bool) (x : Datum) : (x.signed p).IsZero ↔ x.IsZero := by
  cases p <;> cases x <;> simp [signed, negate, IsZero]

/-- A datum that is no NaN is an infinity or a number. -/
theorem Datum.inf_or_fin (h : x.isNan = false) : (∃ n, x = .inf n) ∨ ∃ n m e, x = .fin n m e := by
  cases x with
  | nan => cases h
  | inf n => exact .inl ⟨n, rfl⟩
  | fin n m e => exact .inr ⟨n, m, e, rfl⟩

/-- The sign of what a pattern stands for is its sign bit. -/
theorem Fmt.negative_datum (h : (f.datum a).isNan = false) : (f.datum a).negative = f.neg a := by
  unfold Fmt.datum at h ⊢
  split_ifs at h ⊢ <;> trivial

theorem Fmt.neg_of_inf (h : f.datum a = .inf n) : f.neg a = n := by
  rw [← Fmt.negative_datum (by rw [h]; rfl), h]
  rfl

theorem Fmt.neg_of_fin {m : Nat} {e : Int} (h : f.datum a = .fin n m e) : f.neg a = n := by
  rw [← Fmt.negative_datum (by rw [h]; rfl), h]
  rfl

/-- A pattern with a value is a number with this sign, significand and exponent. -/
theorem exists_datum_of_valueOf {p : ℝ} (h : valueOf f a = some p) :
    ∃ m e, f.datum a = .fin (f.neg a) m e ∧ p = signUnit (f.neg a) * (m * 2 ^ e) := by
  unfold valueOf at h
  split at h
  · rename_i n m e hd
    rw [Fmt.neg_of_fin hd]
    exact ⟨m, e, hd, (Option.some.inj h).symm.trans (mul_assoc ..)⟩
  · cases h

theorem valueOf_eq_zero_iff : valueOf f a = some 0 ↔ (f.datum a).IsZero := by
  unfold valueOf Datum.IsZero
  split
  · rename_i n m e hd
    have hs : (if n = true then (-1 : ℝ) else 1) ≠ 0 := by split_ifs <;> norm_num
    have he : (2 : ℝ) ^ e ≠ 0 := zpow_ne_zero _ two_ne_zero
    rw [hd, Option.some_inj, mul_eq_zero, mul_eq_zero, or_iff_left he, or_iff_right hs, Nat.cast_eq_zero]
    exact ⟨fun hm => ⟨n, e, by rw [hm]⟩, fun ⟨_, _, h⟩ => by cases h; rfl⟩
  · rename_i hd
    exact ⟨fun h => (nomatch h), fun ⟨n, e, h⟩ => absurd h (hd n 0 e)⟩

/-! ### NaN operands -/

/-- The first of two operands that is a NaN. -/
theorem Datum.nan_or_nan (h : x.isNan = true ∨ y.isNan = true) :
    (∃ s, x = .nan s) ∨ (((∃ n, x = .inf n) ∨ ∃ n m e, x = .fin n m e) ∧ ∃ s, y = .nan s) := by
  cases x with
  | nan s => exact .inl ⟨s, rfl⟩
  | inf | fin =>
    cases y with
    | nan s => exact .inr ⟨Datum.inf_or_fin rfl, s, rfl⟩
    | inf | fin => simp [Datum.isNan] at h

theorem Fmt.addDatum_nan (h : x.isNan = true ∨ y.isNan = true) :
    f.addDatum r x y = f.nanResult (x.isSignaling || y.isSignaling) := by
  obtain ⟨s, rfl⟩ | ⟨⟨n, rfl⟩ | ⟨n, m, e, rfl⟩, s, rfl⟩ := Datum.nan_or_nan h <;> rfl

theorem Fmt.mul_nan (h : (f.datum a).isNan = true ∨ (f.datum b).isNan = true) :
    f.mul r a b = f.nanResult ((f.datum a).isSignaling || (f.datum b).isSignaling) := by
  unfold Fmt.mul
  obtain ⟨s, hx⟩ | ⟨⟨n, hx⟩ | ⟨n, m, e, hx⟩, s, hy⟩ := Datum.nan_or_nan h
  · rw [hx]
    rfl
  all_goals
    rw [hx, hy]
    rfl

theorem Fmt.div_nan (h : (f.datum a).isNan = true ∨ (f.datum b).isNan = true) :
    f.div r a b = f.nanResult ((f.datum a).isSignaling || (f.datum b).isSignaling) := by
  unfold Fmt.div
  obtain ⟨s, hx⟩ | ⟨⟨n, hx⟩ | ⟨n, m, e, hx⟩, s, hy⟩ := Datum.nan_or_nan h
  · rw [hx]
    rfl
  all_goals
    rw [hx, hy]
    rfl

theorem Fmt.fmaDatum_nan (h : x.isNan = true ∨ y.isNan = true) :
    f.fmaDatum r x y z = f.nanResult (x.isSignaling || y.isSignaling || z.isSignaling) := by
  obtain ⟨s, rfl⟩ | ⟨⟨n, rfl⟩ | ⟨n, m, e, rfl⟩, s, rfl⟩ := Datum.nan_or_nan h <;> rfl

theorem Fmt.compare_nan (h : (f.datum a).isNan = true ∨ (f.datum b).isNan = true) :
    f.eq a b = (false, if (f.datum a).isSignaling || (f.datum b).isSignaling then flagNV else 0) ∧
    f.lt a b = (false, flagNV) ∧ f.le a b = (false, flagNV) := by
  have h' : ((f.datum a).isNan || (f.datum b).isNan) = true := by simpa using h
  exact ⟨if_pos h', if_pos h', if_pos h'⟩

theorem Fmt.sqrt_convert_nan (h : (f.datum a).isNan = true) :
    f.sqrt r a = f.nanResult (f.datum a).isSignaling ∧ Fmt.convert f g r a = g.nanResult (f.datum a).isSignaling := by
  unfold Fmt.sqrt Fmt.convert
  cases hd : f.datum a with
  | nan => exact ⟨rfl, rfl⟩
  | inf | fin => simp [hd, Datum.isNan] at h

/-! ### The fused operations -/

/-- The fused operation of the four rows, by whether it changes the sign of the product and of the addend. -/
def Fmt.fused (f : Fmt) (r : RoundMode) (p q : Bool) (a b c : Nat) : FpResult :=
  f.fmaDatum r ((f.datum a).signed p) (f.datum b) ((f.datum c).signed q)

theorem Fmt.fused_rows (f : Fmt) (r : RoundMode) (a b c : Nat) :
    f.fmadd r a b c = f.fused r false false a b c ∧ f.fmsub r a b c = f.fused r false true a b c ∧
    f.fnmsub r a b c = f.fused r true false a b c ∧ f.fnmadd r a b c = f.fused r true true a b c := ⟨rfl, rfl, rfl, rfl⟩

theorem Fmt.fused_nan (p q : Bool) (h : (f.datum a).isNan = true ∨ (f.datum b).isNan = true) :
    f.fused r p q a b c =
      f.nanResult ((f.datum a).isSignaling || (f.datum b).isSignaling || (f.datum c).isSignaling) := by
  rw [Fmt.fused, Fmt.fmaDatum_nan (by simpa using h)]
  simp

/-! ### Infinite operands -/

/-- An infinity and a datum that is no NaN: only the infinity of the other sign is no addend for it. -/
theorem Fmt.addDatum_inf (h : y.isNan = false) :
    (y = .inf (!n) → f.addDatum r (.inf n) y = f.nanResult true ∧ f.addDatum r y (.inf n) = f.nanResult true) ∧
    (y ≠ .inf (!n) → f.addDatum r (.inf n) y = f.infResult n ∧ f.addDatum r y (.inf n) = f.infResult n) := by
  obtain ⟨m, rfl⟩ | ⟨m, k, e, rfl⟩ := Datum.inf_or_fin h
  · cases n <;> cases m <;> simp [Fmt.addDatum]
  · exact ⟨fun hy => (nomatch hy), fun _ => ⟨rfl, rfl⟩⟩

theorem Fmt.sub_inf (ha : f.datum a = .inf n) (h : (f.datum b).isNan = false) :
    (f.datum b = .inf n → f.sub r a b = f.nanResult true) ∧
    (f.datum b ≠ .inf n → f.sub r a b = f.infResult n ∧ f.sub r b a = f.infResult (!n)) := by
  have hneg : (f.datum b).negate = .inf (!n) ↔ f.datum b = .inf n := by cases f.datum b <;> simp [Datum.negate]
  obtain ⟨hsame, hother⟩ := Fmt.addDatum_inf (f := f) (r := r) (n := n) ((f.datum b).isNan_negate.trans h)
  obtain ⟨-, hswap⟩ := Fmt.addDatum_inf (f := f) (r := r) (n := !n) h
  rw [hneg] at hsame
  rw [ne_eq, hneg] at hother
  rw [Bool.not_not] at hswap
  rw [Fmt.sub, Fmt.sub, ha]
  exact ⟨fun hb => (hsame hb).1, fun hb => ⟨(hother hb).1, (hswap hb).2⟩⟩

/-- An infinity times a zero is none; times anything else it is an infinity. -/
theorem Fmt.mul_inf (ha : f.datum a = .inf n) (h : (f.datum b).isNan = false) :
    (valueOf f b = some 0 → f.mul r a b = f.nanResult true ∧ f.mul r b a = f.nanResult true) ∧
    (valueOf f b ≠ some 0 → f.mul r a b = f.infResult (n != f.neg b) ∧ f.mul r b a = f.infResult (n != f.neg b)) := by
  rw [ne_eq, valueOf_eq_zero_iff]
  unfold Fmt.mul
  rw [ha, ← Fmt.negative_datum h]
  obtain ⟨m, hb⟩ | ⟨m, k, e, hb⟩ := Datum.inf_or_fin h
  · simp [hb, Datum.IsZero, Datum.negative, Bool.xor_comm m n]
  · by_cases hk : k = 0 <;> simp [hb, hk, Datum.IsZero, Datum.negative, Bool.xor_comm m n]

theorem Fmt.div_inf (ha : f.datum a = .inf n) (h : (f.datum b).isNan = false) :
    ((∃ m, f.datum b = .inf m) → f.div r a b = f.nanResult true) ∧
    ((∀ m, f.datum b ≠ .inf m) → f.div r a b = f.infResult (n != f.neg b) ∧
      f.div r b a = (f.withSign (f.neg b != n) 0, 0)) := by
  unfold Fmt.div
  rw [ha, ← Fmt.negative_datum h]
  obtain ⟨m, hb⟩ | ⟨m, k, e, hb⟩ := Datum.inf_or_fin h
  · rw [hb]
    exact ⟨fun _ => rfl, fun hm => absurd rfl (hm m)⟩
  · rw [hb]
    exact ⟨fun ⟨_, hm⟩ => (nomatch hm), fun _ => ⟨rfl, rfl⟩⟩

theorem Fmt.sqrt_convert_inf (h : f.datum a = .inf n) :
    f.sqrt r a = (if n then f.nanResult true else f.infResult false) ∧ Fmt.convert f g r a = g.infResult n := by
  unfold Fmt.sqrt Fmt.convert
  rw [h]
  exact ⟨rfl, rfl⟩

/-- An infinite product and an addend that is no NaN. -/
theorem Fmt.addDatum_infProduct (p : Bool) (hz : z.isNan = false) :
    (z.IsInf → z.negative ≠ p → f.addDatum r (.inf p) z = f.nanResult true) ∧
    (¬z.IsInf ∨ z.negative = p → f.addDatum r (.inf p) z = f.infResult p) := by
  obtain ⟨m, rfl⟩ | ⟨m, k, e, rfl⟩ := Datum.inf_or_fin hz
  · cases p <;> cases m <;> simp [Fmt.addDatum, Datum.IsInf, Datum.negative]
  · exact ⟨fun ⟨_, hm⟩ => (nomatch hm), fun _ => rfl⟩

/-- A fused operation with a zero and an infinity as factors. -/
theorem Fmt.fmaDatum_infTimesZero (h : (x.IsInf ∧ y.IsZero) ∨ (x.IsZero ∧ y.IsInf)) :
    f.fmaDatum r x y z = f.nanResult true := by
  obtain ⟨⟨n, rfl⟩, m, e, rfl⟩ | ⟨⟨m, e, rfl⟩, n, rfl⟩ := h <;> rfl

/-- A fused operation with an infinite factor and no zero one adds the infinity of the product. -/
theorem Fmt.fmaDatum_inf (hx : x.isNan = false) (hy : y.isNan = false)
    (h : ¬((x.IsInf ∧ y.IsZero) ∨ (x.IsZero ∧ y.IsInf))) (hi : x.IsInf ∨ y.IsInf) :
    f.fmaDatum r x y z =
      if z.isNan then f.nanResult z.isSignaling else f.addDatum r (.inf (x.negative != y.negative)) z := by
  obtain ⟨n, rfl⟩ | ⟨n, k, e, rfl⟩ := Datum.inf_or_fin hx
  · obtain ⟨m, rfl⟩ | ⟨m, l, d, rfl⟩ := Datum.inf_or_fin hy
    · rfl
    · have hl : l ≠ 0 := by rintro rfl; exact h (.inl ⟨⟨_, rfl⟩, _, _, rfl⟩)
      exact if_neg hl
  · obtain ⟨m, rfl⟩ | ⟨m, l, d, rfl⟩ := Datum.inf_or_fin hy
    · have hk : k ≠ 0 := by rintro rfl; exact h (.inr ⟨⟨_, _, rfl⟩, _, rfl⟩)
      exact if_neg hk
    · simp [Datum.IsInf] at hi

/-- With finite factors it adds their product. -/
theorem Fmt.fmaDatum_finite (hx : x.isNan = false) (hy : y.isNan = false) (hi : ¬x.IsInf) (hj : ¬y.IsInf) :
    ∃ m e, f.fmaDatum r x y z = f.addDatum r (.fin (x.negative != y.negative) m e) z := by
  obtain ⟨n, rfl⟩ | ⟨n, k, e, rfl⟩ := Datum.inf_or_fin hx
  · exact absurd ⟨_, rfl⟩ hi
  · obtain ⟨m, rfl⟩ | ⟨m, l, d, rfl⟩ := Datum.inf_or_fin hy
    · exact absurd ⟨_, rfl⟩ hj
    · exact ⟨_, _, rfl⟩

theorem Fmt.fmaDatum_nanAddend (hx : x.isNan = false) (hy : y.isNan = false)
    (h : ¬((x.IsInf ∧ y.IsZero) ∨ (x.IsZero ∧ y.IsInf))) (hz : z.isNan = true) :
    f.fmaDatum r x y z = f.nanResult z.isSignaling := by
  by_cases hi : x.IsInf ∨ y.IsInf
  · rw [Fmt.fmaDatum_inf hx hy h hi, if_pos hz]
  · obtain ⟨hi, hj⟩ := not_or.1 hi
    obtain ⟨m, e, he⟩ := Fmt.fmaDatum_finite (f := f) (r := r) (z := z) hx hy hi hj
    rw [he, Fmt.addDatum_nan (.inr hz)]
    rfl

theorem infTimesZero_iff : InfTimesZero f a b ↔
    ((f.datum a).IsInf ∧ (f.datum b).IsZero) ∨ ((f.datum a).IsZero ∧ (f.datum b).IsInf) := by
  rw [InfTimesZero, valueOf_eq_zero_iff, valueOf_eq_zero_iff]
  rfl

/-- A fused operation with infinite operands, where np is the sign of the product and nc that of the addend, both as the row has
them. -/
theorem Fmt.fused_infinite (f : Fmt) (r : RoundMode) (p q : Bool) (a b c : Nat) {np nc : Bool}
    (hnp : np = cond p (!(f.neg a != f.neg b)) (f.neg a != f.neg b)) (hnc : nc = cond q (!f.neg c) (f.neg c)) :
    (InfTimesZero f a b → f.fused r p q a b c = f.nanResult true) ∧
    ((f.datum a).isNan = false → (f.datum b).isNan = false → ¬InfTimesZero f a b →
      ((f.datum c).isNan = true → f.fused r p q a b c = f.nanResult (f.datum c).isSignaling) ∧
      ((f.datum c).isNan = false → (IsInf f a ∨ IsInf f b) →
        (IsInf f c → nc ≠ np → f.fused r p q a b c = f.nanResult true) ∧
        (¬IsInf f c ∨ nc = np → f.fused r p q a b c = f.infResult np)) ∧
      (IsInf f c → ¬IsInf f a → ¬IsInf f b → f.fused r p q a b c = f.infResult nc)) := by
  have hzero : ((((f.datum a).signed p).IsInf ∧ (f.datum b).IsZero) ∨
      (((f.datum a).signed p).IsZero ∧ (f.datum b).IsInf)) ↔ InfTimesZero f a b := by
    rw [Datum.isInf_signed, Datum.isZero_signed, infTimesZero_iff]
  have hproduct (ha : (f.datum a).isNan = false) (hb : (f.datum b).isNan = false) :
      (((f.datum a).signed p).negative != (f.datum b).negative) = np := by
    rw [hnp, Datum.negative_signed p ha, Fmt.negative_datum ha, Fmt.negative_datum hb]
    cases p <;> simp
  have haddend (hc : (f.datum c).isNan = false) : ((f.datum c).signed q).negative = nc := by
    rw [hnc, Datum.negative_signed q hc, Fmt.negative_datum hc]
  refine ⟨fun h => Fmt.fmaDatum_infTimesZero (hzero.2 h), fun ha hb h => ?_⟩
  have ha' := (Datum.isNan_signed p (f.datum a)).trans ha
  refine ⟨fun hc => ?_, fun hc hi => ?_, fun hi hia hib => ?_⟩
  · rw [Fmt.fused, Fmt.fmaDatum_nanAddend ha' hb (mt hzero.1 h) (by simpa using hc), Datum.isSignaling_signed]
  · have hc' := (Datum.isNan_signed q (f.datum c)).trans hc
    have hsum := Fmt.addDatum_infProduct (f := f) (r := r) np hc'
    rw [Datum.isInf_signed, haddend hc] at hsum
    rw [Fmt.fused, Fmt.fmaDatum_inf ha' hb (mt hzero.1 h) (hi.imp_left (Datum.isInf_signed p _).2), hc', hproduct ha hb]
    exact hsum
  · obtain ⟨n, hn⟩ := hi
    have hc : (f.datum c).isNan = false := by rw [hn]; rfl
    obtain ⟨m, e, he⟩ := Fmt.fmaDatum_finite (f := f) (r := r) (z := (f.datum c).signed q) ha' hb
      (mt (Datum.isInf_signed p _).1 hia) hib
    rw [Fmt.fused, he, ← haddend hc, hn]
    cases q <;> rfl

/-- Settles O42: the operations on NaNs and on infinities, the fused ones as one. -/
theorem nanAndInfiniteOperands : Obligations.NanAndInfiniteOperands := by
  intro f g r a b c _ _
  obtain ⟨h1, h2, h3, h4⟩ := f.fused_rows r a b c
  refine ⟨fun h q hq => ?_, Fmt.sqrt_convert_nan, fun h q hq => ?_, Fmt.compare_nan, fun n nan ha hb hnan => ?_, fun n ha => ?_,
    fun out np nc h => ?_, by decide⟩
  · subst hq
    refine ⟨Fmt.addDatum_nan h, ?_, Fmt.mul_nan h, Fmt.div_nan h⟩
    rw [Fmt.sub, Fmt.addDatum_nan (by simpa using h), Datum.isSignaling_negate]
    rfl
  · subst hq
    rw [h1, h2, h3, h4]
    exact ⟨Fmt.fused_nan _ _ h, Fmt.fused_nan _ _ h, Fmt.fused_nan _ _ h, Fmt.fused_nan _ _ h⟩
  · subst hnan
    obtain ⟨hsame, hother⟩ := Fmt.addDatum_inf (f := f) (r := r) (n := n) hb
    rw [← ha] at hsame hother
    obtain ⟨hsub, hsub'⟩ := Fmt.sub_inf (r := r) ha hb
    obtain ⟨hmul, hmul'⟩ := Fmt.mul_inf (r := r) ha hb
    exact ⟨hsame, hother, hsub, hsub', hmul, hmul', Fmt.div_inf ha hb⟩
  · exact Fmt.sqrt_convert_inf ha
  · obtain ⟨rfl, rfl, rfl⟩ | ⟨rfl, rfl, rfl⟩ | ⟨rfl, rfl, rfl⟩ | ⟨rfl, rfl, rfl⟩ := h
    · exact f.fused_infinite r false false a b c rfl rfl
    · exact f.fused_infinite r false true a b c rfl rfl
    · exact f.fused_infinite r true false a b c rfl rfl
    · exact f.fused_infinite r true true a b c rfl rfl

end Sys2Proof.Machine
end

section
/-! SUPPORT. Sums, products and fused operations on finite numbers are the exact result, rounded once (44_f.md R322 to R328, R343;
45_d.md R376, R377; IEEE 754-2008 signs of exact zeros, log 14). -/

namespace Sys2Proof.Machine

open Sys2Proof.Claims

variable {f g : Fmt} {rm : RoundMode} {a b c : Nat} {p q : ℝ}

/-- The result is the rounding of one exact number equal to x, and where x is zero a zero of the sign z without a flag. -/
def RoundsOnce (f : Fmt) (rm : RoundMode) (x : ℝ) (z : Bool) (out : FpResult) : Prop :=
  (x ≠ 0 → ∃ (neg : Bool) (m : Nat) (e : Int), 0 < m ∧ x = signUnit neg * (m * 2 ^ e) ∧ out = f.round rm neg m e) ∧
  (x = 0 → out = (f.withSign z 0, 0))

theorem signUnit_ne_zero (neg : Bool) : signUnit neg ≠ 0 := by cases neg <;> simp

theorem signUnit_bne (m n : Bool) : signUnit (m != n) = signUnit m * signUnit n := by cases m <;> cases n <;> simp

theorem signUnit_not (n : Bool) : signUnit (!n) = -signUnit n := by cases n <;> simp

theorem signedNat_cast (neg : Bool) (m : Nat) : ((signedNat neg m : Int) : ℝ) = signUnit neg * m := by
  cases neg <;> simp [signedNat]

theorem signedNat_natAbs (v : Int) : signedNat (decide (v < 0)) v.natAbs = v := by
  unfold signedNat
  split_ifs with h
  · have := of_decide_eq_true h
    omega
  · have := mt decide_eq_true h
    omega

/-- A number with a sign is zero only if its magnitude is. -/
theorem signUnit_mul_eq_zero {neg : Bool} {m : Nat} {e : Int} : signUnit neg * (m * (2 : ℝ) ^ e) = 0 ↔ m = 0 := by
  have he : (2 : ℝ) ^ e ≠ 0 := zpow_ne_zero _ two_ne_zero
  rw [mul_eq_zero, or_iff_right (signUnit_ne_zero neg), mul_eq_zero, or_iff_left he, Nat.cast_eq_zero]

/-- Rounding a number rounds it once. -/
theorem roundsOnce_round {x : ℝ} {neg : Bool} {m : Nat} {e : Int} (hx : x = signUnit neg * (m * 2 ^ e)) :
    RoundsOnce f rm x neg (f.round rm neg m e) := by
  subst hx
  rw [RoundsOnce, ne_eq, signUnit_mul_eq_zero]
  exact ⟨fun hm => ⟨neg, m, e, Nat.pos_of_ne_zero hm, rfl, rfl⟩, fun hm => if_pos hm⟩

/-- A significand in units of a lower place. -/
theorem shifted_mul (m : Nat) {e d : Int} (h : d ≤ e) : ((m * 2 ^ (e - d).toNat : Nat) : ℝ) * 2 ^ d = m * 2 ^ e := by
  obtain ⟨k, hk⟩ := Int.eq_ofNat_of_zero_le (sub_nonneg.2 h)
  rw [hk, Int.toNat_natCast, show e = k + d by omega, zpow_add₀ two_ne_zero, zpow_natCast]
  push_cast
  ring

/-- A sum of finite numbers is exact, then rounded. -/
theorem roundsOnce_sumFin {x : ℝ} {na nb : Bool} {ma mb : Nat} {ea eb : Int}
    (hx : x = signUnit na * (ma * 2 ^ ea) + signUnit nb * (mb * 2 ^ eb)) :
    RoundsOnce f rm x (zeroSign rm na nb) (f.sumFin rm na ma ea nb mb eb) := by
  obtain ⟨d, hd⟩ : ∃ d, d = if ea ≤ eb then ea else eb := ⟨_, rfl⟩
  obtain ⟨v, hv⟩ : ∃ v, v = signedNat na (ma * 2 ^ (ea - d).toNat) + signedNat nb (mb * 2 ^ (eb - d).toNat) := ⟨_, rfl⟩
  have hda : d ≤ ea := by rw [hd]; split_ifs <;> omega
  have hdb : d ≤ eb := by rw [hd]; split_ifs <;> omega
  have hxv : x = v * 2 ^ d := by
    rw [hx, hv, Int.cast_add, signedNat_cast, signedNat_cast, add_mul, mul_assoc, mul_assoc, shifted_mul ma hda,
      shifted_mul mb hdb]
  have hsum : f.sumFin rm na ma ea nb mb eb =
      if v = 0 then (f.withSign (zeroSign rm na nb) 0, 0) else f.round rm (decide (v < 0)) v.natAbs d := by
    rw [hv, hd]
    rfl
  have hzero : x = 0 ↔ v = 0 := by
    rw [hxv, mul_eq_zero, or_iff_left (zpow_ne_zero d two_ne_zero), Int.cast_eq_zero]
  rw [hsum]
  refine ⟨fun h => ?_, fun h => if_pos (hzero.1 h)⟩
  have h0 := mt hzero.2 h
  exact ⟨_, _, _, Int.natAbs_pos.2 h0, by rw [hxv, ← mul_assoc, ← signedNat_cast, signedNat_natAbs], if_neg h0⟩

/-! ### The operations -/

/-- The value of a number whose sign is changed or not. -/
theorem signUnit_cond (p n : Bool) : signUnit (cond p (!n) n) = cond p (-1) 1 * signUnit n := by
  cases p <;> cases n <;> simp

theorem Fmt.signed_fin {n : Bool} {m : Nat} {e : Int} (p : Bool) :
    (Datum.fin n m e).signed p = .fin (cond p (!n) n) m e := by cases p <;> rfl

theorem exact_product {na nb : Bool} {ma mb : Nat} {ea eb : Int} (hp : p = signUnit na * (ma * 2 ^ ea))
    (hq : q = signUnit nb * (mb * 2 ^ eb)) : p * q = signUnit (na != nb) * ((ma * mb : Nat) * 2 ^ (ea + eb)) := by
  rw [hp, hq, signUnit_bne, zpow_add₀ two_ne_zero]
  push_cast
  ring

section Binary

variable (ha : valueOf f a = some p) (hb : valueOf f b = some q)
include ha hb

theorem Fmt.add_roundsOnce : RoundsOnce f rm (p + q) (zeroSign rm (f.neg a) (f.neg b)) (f.add rm a b) := by
  obtain ⟨ma, ea, hda, hp⟩ := exists_datum_of_valueOf ha
  obtain ⟨mb, eb, hdb, hq⟩ := exists_datum_of_valueOf hb
  rw [Fmt.add, hda, hdb]
  exact roundsOnce_sumFin (by rw [hp, hq])

theorem Fmt.sub_roundsOnce : RoundsOnce f rm (p - q) (zeroSign rm (f.neg a) (!f.neg b)) (f.sub rm a b) := by
  obtain ⟨ma, ea, hda, hp⟩ := exists_datum_of_valueOf ha
  obtain ⟨mb, eb, hdb, hq⟩ := exists_datum_of_valueOf hb
  rw [Fmt.sub, hda, hdb]
  exact roundsOnce_sumFin (by rw [hp, hq, signUnit_not, neg_mul, sub_eq_add_neg])

theorem Fmt.mul_roundsOnce : RoundsOnce f rm (p * q) (f.neg a != f.neg b) (f.mul rm a b) := by
  obtain ⟨ma, ea, hda, hp⟩ := exists_datum_of_valueOf ha
  obtain ⟨mb, eb, hdb, hq⟩ := exists_datum_of_valueOf hb
  rw [Fmt.mul, hda, hdb]
  exact roundsOnce_round (exact_product hp hq)

/-- A fused operation: the product and the addend, each with its sign changed or not. -/
theorem Fmt.fused_roundsOnce {r x : ℝ} (hc : valueOf f c = some r) (s t : Bool)
    (hx : x = cond s (-1) 1 * (p * q) + cond t (-1) 1 * r) :
    RoundsOnce f rm x
      (zeroSign rm (cond s (!(f.neg a != f.neg b)) (f.neg a != f.neg b)) (cond t (!f.neg c) (f.neg c)))
      (f.fused rm s t a b c) := by
  obtain ⟨ma, ea, hda, hp⟩ := exists_datum_of_valueOf ha
  obtain ⟨mb, eb, hdb, hq⟩ := exists_datum_of_valueOf hb
  obtain ⟨mc, ec, hdc, hr⟩ := exists_datum_of_valueOf hc
  have hsign : (cond s (!f.neg a) (f.neg a) != f.neg b) = cond s (!(f.neg a != f.neg b)) (f.neg a != f.neg b) := by
    cases s <;> simp
  rw [Fmt.fused, hda, hdb, hdc, Fmt.signed_fin, Fmt.signed_fin, ← hsign]
  refine roundsOnce_sumFin ?_
  rw [hsign, signUnit_cond, signUnit_cond, mul_assoc, mul_assoc, ← exact_product hp hq, ← hr, hx]

end Binary

theorem Fmt.convert_roundsOnce (ha : valueOf f a = some p) : RoundsOnce g rm p (f.neg a) (Fmt.convert f g rm a) := by
  obtain ⟨ma, ea, hda, hp⟩ := exists_datum_of_valueOf ha
  rw [Fmt.convert, hda]
  exact roundsOnce_round hp

theorem Fmt.ofInt_roundsOnce (v : Int) : RoundsOnce f rm v false (f.ofInt rm v) := by
  obtain ⟨hne, hz⟩ := roundsOnce_round (f := f) (rm := rm) (x := v) (neg := decide (v < 0)) (m := v.natAbs) (e := 0)
    (by rw [zpow_zero, mul_one, ← signedNat_cast, signedNat_natAbs])
  refine ⟨hne, fun h => ?_⟩
  obtain rfl : v = 0 := by exact_mod_cast h
  exact hz h

/-- Settles O45: each operation rounds its exact result once. -/
theorem arithmeticIsExactThenRounded : Obligations.ArithmeticIsExactThenRounded := by
  intro f g rm a b c p q r hf hg ha hb hc x out dst z h
  obtain ⟨h1, h2, h3, h4⟩ := f.fused_rows rm a b c
  have key : Standard dst ∧ RoundsOnce dst rm x z out := by
    obtain ⟨rfl, rfl, rfl, rfl⟩ | ⟨rfl, rfl, rfl, rfl⟩ | ⟨rfl, rfl, rfl, rfl⟩ | ⟨rfl, rfl, rfl, rfl⟩ |
      ⟨rfl, rfl, rfl, rfl⟩ | ⟨rfl, rfl, rfl, rfl⟩ | ⟨rfl, rfl, rfl, rfl⟩ | ⟨rfl, rfl, rfl, rfl⟩ | ⟨v, rfl, rfl, rfl, rfl⟩ := h
    · exact ⟨hf, Fmt.add_roundsOnce ha hb⟩
    · exact ⟨hf, Fmt.sub_roundsOnce ha hb⟩
    · exact ⟨hf, Fmt.mul_roundsOnce ha hb⟩
    · exact ⟨hf, h1 ▸ Fmt.fused_roundsOnce ha hb hc false false (by simp)⟩
    · exact ⟨hf, h2 ▸ Fmt.fused_roundsOnce ha hb hc false true (by simp [sub_eq_add_neg])⟩
    · exact ⟨hf, h3 ▸ Fmt.fused_roundsOnce ha hb hc true false (by simp)⟩
    · exact ⟨hf, h4 ▸ Fmt.fused_roundsOnce ha hb hc true true (by simp [sub_eq_add_neg])⟩
    · exact ⟨hg, Fmt.convert_roundsOnce ha⟩
    · exact ⟨hf, Fmt.ofInt_roundsOnce v⟩
  obtain ⟨hdst, hne, hzero⟩ := key
  refine ⟨fun hx => ?_, fun hx => ?_⟩
  · obtain ⟨neg, m, e, hm, he, ho⟩ := hne hx
    exact ⟨neg, m, e, hm, he.trans (mul_assoc ..).symm, ho⟩
  · have hreg := Fmt.regular_of_standard hdst
    rw [hzero hx, Fmt.valueOf_withSign hreg z hreg.infBits_pos, Fmt.mag_zero, mul_zero]
    exact ⟨rfl, rfl⟩

end Sys2Proof.Machine
end

section
/-! SUPPORT. The order of the patterns of a format is that of their values; minimum, maximum and classes (44_f.md R334, R335,
R339 to R342; log 14). -/

namespace Sys2Proof.Machine

open Sys2Proof.Claims

variable {f : Fmt} {a b : Nat}

/-! ### The order key -/

/-- The extended number of a magnitude pattern: from the pattern of infinity on, infinity. -/
noncomputable def Fmt.extendedMag (f : Fmt) (k : Nat) : EReal := if k < f.infBits then (f.mag k : EReal) else ⊤

/-- The extended number of an order key. -/
noncomputable def Fmt.extendedKey (f : Fmt) (k : Int) : EReal :=
  if k < 0 then -f.extendedMag k.natAbs else f.extendedMag k.natAbs

theorem Fmt.extendedMag_lt {j k : Nat} (h : j < k) (hk : k ≤ f.infBits) : f.extendedMag j < f.extendedMag k := by
  rw [Fmt.extendedMag, Fmt.extendedMag, if_pos (h.trans_le hk)]
  split_ifs
  · exact EReal.coe_lt_coe_iff.2 (f.mag_strictMono h)
  · exact EReal.coe_lt_top _

theorem Fmt.Regular.extendedMag_zero (hf : f.Regular) : f.extendedMag 0 = 0 := by
  rw [Fmt.extendedMag, if_pos hf.infBits_pos, f.mag_zero, EReal.coe_zero]

theorem Fmt.Regular.extendedMag_nonneg (hf : f.Regular) {k : Nat} (hk : k ≤ f.infBits) : 0 ≤ f.extendedMag k := by
  rw [← hf.extendedMag_zero]
  rcases Nat.eq_zero_or_pos k with rfl | h
  · exact le_rfl
  · exact (Fmt.extendedMag_lt h hk).le

/-- Keys up to those of the infinities are in the order of their numbers. -/
theorem Fmt.Regular.extendedKey_strictMonoOn (hf : f.Regular) :
    StrictMonoOn f.extendedKey {k | k.natAbs ≤ f.infBits} := by
  intro j hj k hk hjk
  replace hj : j.natAbs ≤ f.infBits := hj
  replace hk : k.natAbs ≤ f.infBits := hk
  unfold Fmt.extendedKey
  by_cases hj0 : j < 0
  · rw [if_pos hj0]
    by_cases hk0 : k < 0
    · rw [if_pos hk0]
      exact EReal.neg_lt_neg_iff.2 (Fmt.extendedMag_lt (by omega) hj)
    · rw [if_neg hk0]
      have hpos : 0 < f.extendedMag j.natAbs := by
        rw [← hf.extendedMag_zero]
        exact Fmt.extendedMag_lt (by omega) hj
      exact (EReal.neg_lt_zero.2 hpos).trans_le (hf.extendedMag_nonneg hk)
  · rw [if_neg hj0, if_neg (by omega)]
    exact Fmt.extendedMag_lt (by omega) hk

theorem Fmt.natAbs_orderKey (f : Fmt) (a : Nat) : (f.orderKey a).natAbs = a % f.signBit := by
  unfold Fmt.orderKey signedNat
  split_ifs <;> omega

/-- The number of the key of a pattern is its magnitude with its sign. -/
theorem Fmt.Regular.extendedKey_orderKey (hf : f.Regular) (a : Nat) :
    f.extendedKey (f.orderKey a) = if f.neg a then -f.extendedMag (a % f.signBit) else f.extendedMag (a % f.signBit) := by
  unfold Fmt.extendedKey
  rw [Fmt.natAbs_orderKey, Fmt.orderKey, signedNat]
  by_cases hn : f.neg a = true
  · rw [if_pos hn, if_pos hn]
    rcases Nat.eq_zero_or_pos (a % f.signBit) with h | h
    · rw [h, hf.extendedMag_zero]
      simp
    · rw [if_pos (by omega)]
  · rw [if_neg hn, if_neg hn, if_neg (by omega)]

/-- A pattern of an infinity has the magnitude pattern of infinity. -/
theorem Fmt.mod_signBit_of_inf {n : Bool} (h : f.datum a = .inf n) : a % f.signBit = f.infBits := by
  obtain ⟨he, hfr⟩ := f.fields_mod_signBit a
  have hsplit := Nat.div_add_mod' (a % f.signBit) (2 ^ f.fracBits)
  unfold Fmt.datum at h
  split_ifs at h with h1 h2
  rw [← hsplit, he, hfr, h1, h2]
  rfl

/-- The extended number of a pattern is that of its key. -/
theorem Fmt.Regular.extendedOf_eq (hf : f.Regular) {p : EReal} (h : extendedOf f a = some p) :
    (f.datum a).isNan = false ∧ (f.orderKey a).natAbs ≤ f.infBits ∧ p = f.extendedKey (f.orderKey a) := by
  rw [Fmt.natAbs_orderKey, hf.extendedKey_orderKey]
  unfold extendedOf at h
  cases hd : f.datum a with
  | nan s => rw [hd] at h; cases h
  | inf n =>
    rw [hd] at h
    rw [Fmt.mod_signBit_of_inf hd, Fmt.neg_of_inf hd, Fmt.extendedMag, if_neg (lt_irrefl _)]
    exact ⟨rfl, le_rfl, (Option.some.inj h).symm⟩
  | fin n m e =>
    have hv : valueOf f a = some ((if n then -1 else 1) * (m : ℝ) * (2 : ℝ) ^ e) := by rw [valueOf, hd]
    rw [hd] at h
    rw [Fmt.valueOf_eq hf] at hv
    by_cases hlt : a % f.signBit < f.infBits
    · rw [if_pos hlt] at hv
      refine ⟨rfl, hlt.le, ?_⟩
      rw [← Option.some.inj h, ← Option.some.inj hv, Fmt.extendedMag, if_pos hlt]
      cases f.neg a <;> simp
    · rw [if_neg hlt] at hv
      cases hv

/-! ### Comparisons, minimum and maximum -/

section Compare

variable (ha : (f.datum a).isNan = false) (hb : (f.datum b).isNan = false)
include ha hb

theorem Fmt.isSignaling_of_numbers : ((f.datum a).isSignaling || (f.datum b).isSignaling) = false := by
  rw [Bool.or_eq_false_iff]
  constructor
  · obtain ⟨n, h⟩ | ⟨n, m, e, h⟩ := Datum.inf_or_fin ha <;> rw [h] <;> rfl
  · obtain ⟨n, h⟩ | ⟨n, m, e, h⟩ := Datum.inf_or_fin hb <;> rw [h] <;> rfl

/-- Comparisons of numbers compare their keys. -/
theorem Fmt.compare_numbers : f.eq a b = (decide (f.orderKey a = f.orderKey b), 0) ∧
    f.lt a b = (decide (f.orderKey a < f.orderKey b), 0) ∧ f.le a b = (decide (f.orderKey a ≤ f.orderKey b), 0) := by
  simp [Fmt.eq, Fmt.lt, Fmt.le, ha, hb]

/-- Minimum and maximum of numbers compare their keys. -/
theorem Fmt.minmax_numbers :
    f.min a b = (if f.orderKey a < f.orderKey b then a else if f.orderKey b < f.orderKey a then b
      else if f.neg a then a else b, 0) ∧
    f.max a b = (if f.orderKey a < f.orderKey b then b else if f.orderKey b < f.orderKey a then a
      else if f.neg a then b else a, 0) := by
  have hs := Fmt.isSignaling_of_numbers ha hb
  simp only [Fmt.min, Fmt.max, ha, hb, hs, Bool.and_false, Bool.false_eq_true, if_false]
  constructor <;> split_ifs <;> rfl

end Compare

/-- One NaN gives the other operand, two the canonical NaN. -/
theorem Fmt.minmax_nan (f : Fmt) (a b : Nat) (fl : FlagBits)
    (hfl : fl = if (f.datum a).isSignaling || (f.datum b).isSignaling then flagNV else 0) :
    ((f.datum a).isNan = true → (f.datum b).isNan = false → f.min a b = (b, fl) ∧ f.max a b = (b, fl)) ∧
    ((f.datum a).isNan = false → (f.datum b).isNan = true → f.min a b = (a, fl) ∧ f.max a b = (a, fl)) ∧
    ((f.datum a).isNan = true → (f.datum b).isNan = true →
      f.min a b = (f.canonicalNan, fl) ∧ f.max a b = (f.canonicalNan, fl)) := by
  subst hfl
  refine ⟨fun ha hb => ?_, fun ha hb => ?_, fun ha hb => ?_⟩ <;> simp [Fmt.min, Fmt.max, ha, hb]

/-! ### Classes -/

/-- The smallest normal number has the first pattern with an exponent field that is not zero. -/
theorem Fmt.Regular.mag_normal (hf : f.Regular) : f.mag (2 ^ f.fracBits) = minNormal f := by
  obtain ⟨w, -, hw, -, hq⟩ := hf.exponents
  have h := f.mag_scaled (k := 0) (n := 2 ^ f.fracBits) (.inl rfl) (Nat.pow_le_pow_right two_pos (Nat.le_succ _))
  rw [Nat.zero_mul, Nat.zero_add] at h
  rw [h, minNormal, hw, hq]
  push_cast
  rw [← zpow_natCast, ← zpow_add₀ two_ne_zero]
  congr 1
  ring

/-- A value is below the smallest normal number exactly if the exponent field is zero. -/
theorem Fmt.Regular.abs_lt_minNormal_iff (hf : f.Regular) {v : ℝ} (h : valueOf f a = some v) :
    |v| < minNormal f ↔ f.expField a = 0 := by
  rw [Fmt.valueOf_eq hf] at h
  split_ifs at h
  rw [← Option.some.inj h, abs_signUnit_mul, abs_of_nonneg (f.mag_nonneg _), ← hf.mag_normal, f.mag_strictMono.lt_iff_lt,
    ← (f.fields_mod_signBit a).1, Nat.div_eq_zero_iff_lt (Nat.two_pow_pos _)]

/-- The class of a number, by its value and its sign. -/
theorem Fmt.Regular.classBit_of_value (hf : f.Regular) {v : ℝ} (h : valueOf f a = some v) :
    f.classBit a = if v = 0 then (if f.neg a then 3 else 4)
      else if |v| < minNormal f then (if f.neg a then 2 else 5) else (if f.neg a then 1 else 6) := by
  obtain ⟨m, e, hd, hv⟩ := exists_datum_of_valueOf h
  have hz : v = 0 ↔ m = 0 := by rw [hv, signUnit_mul_eq_zero]
  rw [Fmt.classBit, hd]
  simp only [hf.abs_lt_minNormal_iff h, hz]

/-- A number that is not zero has the sign of its pattern. -/
theorem neg_iff_lt_zero {v : ℝ} (h : valueOf f a = some v) (hv : v ≠ 0) : f.neg a = true ↔ v < 0 := by
  obtain ⟨m, e, -, rfl⟩ := exists_datum_of_valueOf h
  rw [ne_eq, signUnit_mul_eq_zero] at hv
  have hpos : 0 < (m : ℝ) * 2 ^ e := mul_pos (by exact_mod_cast Nat.pos_of_ne_zero hv) (zpow_pos two_pos _)
  exact (signUnit_mul_lt_zero _ hpos).symm

theorem minNormal_pos (f : Fmt) : 0 < minNormal f := zpow_pos two_pos _

theorem Fmt.Regular.classes_of_numbers (hf : f.Regular) {v : ℝ} (h : valueOf f a = some v) :
    (v ≤ -minNormal f → f.classBit a = 1) ∧ (-minNormal f < v → v < 0 → f.classBit a = 2) ∧
    (v = 0 → f.classBit a = if f.neg a then 3 else 4) ∧
    (0 < v → v < minNormal f → f.classBit a = 5) ∧ (minNormal f ≤ v → f.classBit a = 6) := by
  have hmin := minNormal_pos f
  have hsign := neg_iff_lt_zero h
  rw [hf.classBit_of_value h]
  refine ⟨fun hv => ?_, fun hv h0 => ?_, fun hv => if_pos hv, fun h0 hv => ?_, fun hv => ?_⟩
  · have h0 : v < 0 := by linarith
    rw [if_neg h0.ne, abs_of_neg h0, if_neg (by linarith), if_pos ((hsign h0.ne).2 h0)]
  · rw [if_neg h0.ne, abs_of_neg h0, if_pos (by linarith), if_pos ((hsign h0.ne).2 h0)]
  · rw [if_neg h0.ne', abs_of_pos h0, if_pos hv, if_neg fun hn => h0.not_gt ((hsign h0.ne').1 hn)]
  · have h0 : 0 < v := by linarith
    rw [if_neg h0.ne', abs_of_pos h0, if_neg (by linarith), if_neg fun hn => h0.not_gt ((hsign h0.ne').1 hn)]

theorem Fmt.Regular.classes_of_nans (hf : f.Regular) {sg : Bool} (h : f.datum a = .nan sg) :
    (f.classBit a = if sg then 8 else 9) ∧ a / 2 ^ (f.fracBits - 1) % 2 = if sg then 0 else 1 := by
  refine ⟨by rw [Fmt.classBit, h], ?_⟩
  have hfrac : 2 ^ f.fracBits = 2 ^ (f.fracBits - 1) * 2 := by rw [← pow_succ, Nat.sub_add_cancel hf.one_le_frac]
  have htop : a / 2 ^ (f.fracBits - 1) % 2 = f.fracField a / 2 ^ (f.fracBits - 1) := by
    rw [Fmt.fracField, hfrac, Nat.mod_mul_right_div_self]
  have hlt : f.fracField a / 2 ^ (f.fracBits - 1) < 2 := by rw [← htop]; omega
  have hsg : sg = decide (f.fracField a < 2 ^ (f.fracBits - 1)) := by
    unfold Fmt.datum at h
    split_ifs at h
    exact (Datum.nan.inj h).symm
  have hdiv := Nat.div_eq_zero_iff_lt (x := f.fracField a) (Nat.two_pow_pos (f.fracBits - 1))
  rw [htop, hsg]
  simp only [decide_eq_true_eq, ← hdiv]
  split_ifs <;> omega

/-- Settles O43: keys are in the order of the extended numbers; classes by value. -/
theorem comparisonsAndClasses : Obligations.ComparisonsAndClasses := by
  intro f a b hstd
  have hf := Fmt.regular_of_standard hstd
  refine ⟨fun p q hp hq => ?_, f.minmax_nan a b, fun v => hf.classes_of_numbers, fun n h => by rw [Fmt.classBit, h],
    fun sg => hf.classes_of_nans⟩
  obtain ⟨ha, hka, rfl⟩ := hf.extendedOf_eq hp
  obtain ⟨hb, hkb, rfl⟩ := hf.extendedOf_eq hq
  obtain ⟨heq, hlt, hle⟩ := Fmt.compare_numbers ha hb
  obtain ⟨hmin, hmax⟩ := Fmt.minmax_numbers ha hb
  have hmono := hf.extendedKey_strictMonoOn
  rw [heq, hlt, hle, hmin, hmax, hmono.injOn.eq_iff hka hkb, hmono.lt_iff_lt hka hkb, hmono.lt_iff_lt hkb hka,
    hmono.le_iff_le hka hkb]
  refine ⟨decide_eq_true_iff, decide_eq_true_iff, decide_eq_true_iff, rfl, rfl, rfl, fun h => ?_, fun h => ?_, fun h => ?_⟩
  · simp only [if_pos h, and_self]
  · simp only [if_neg h.not_gt, if_pos h, and_self]
  · simp only [h, lt_irrefl, if_false, and_self]

end Sys2Proof.Machine
end

section
/-! SUPPORT. A quotient or root is rounded from a longer significand whose last bit says whether more follows: what rounding asks
of a number, it asks of this one with the same answers. -/

namespace Sys2Proof.Machine

open Sys2Proof.Claims

variable {f : Fmt} {rm : RoundMode} {neg : Bool} {X Y : ℝ} {d : ℤ} {n b : Nat}

/-! ### Numbers that rounding does not tell apart -/

/-- X is fracBits + 2 bits or more above the place of weight 2^d, and X and Y compare alike with every multiple of 2^d. -/
structure Indistinct (f : Fmt) (d : ℤ) (X Y : ℝ) : Prop where
  large : ((2 ^ (f.fracBits + 2) : Nat) : ℝ) * 2 ^ d ≤ X
  le_iff : ∀ j : Nat, (j : ℝ) * 2 ^ d ≤ X ↔ (j : ℝ) * 2 ^ d ≤ Y
  ge_iff : ∀ j : Nat, X ≤ (j : ℝ) * 2 ^ d ↔ Y ≤ (j : ℝ) * 2 ^ d

namespace Indistinct

variable (h : Indistinct f d X Y)
include h

theorem pos : 0 < X ∧ 0 < Y := by
  have h0 : (0 : ℝ) < ((2 ^ (f.fracBits + 2) : Nat) : ℝ) * 2 ^ d := by positivity
  exact ⟨h0.trans_le h.large, h0.trans_le ((h.le_iff _).1 h.large)⟩

/-- They compare alike with every number of fracBits + 2 bits, at whatever place. -/
theorem compare {t : ℝ} {j : Nat} {c : ℤ} (ht : t = j * 2 ^ c) (hj : j < 2 ^ (f.fracBits + 2)) :
    (t ≤ X ↔ t ≤ Y) ∧ (X ≤ t ↔ Y ≤ t) := by
  subst ht
  rcases le_or_gt d c with hc | hc
  · rw [← shifted_mul j hc]
    exact ⟨h.le_iff _, h.ge_iff _⟩
  · have hlt : (j : ℝ) * 2 ^ c < ((2 ^ (f.fracBits + 2) : Nat) : ℝ) * 2 ^ d := by
      have hpow : (2 : ℝ) ^ c ≤ 2 ^ d := zpow_le_zpow_right₀ one_le_two hc.le
      exact mul_lt_mul (by exact_mod_cast hj) hpow (zpow_pos two_pos _) (by positivity)
    have hX := hlt.trans_le h.large
    have hY := hlt.trans_le ((h.le_iff _).1 h.large)
    exact ⟨iff_of_true hX.le hY.le, iff_of_false hX.not_ge hY.not_ge⟩

/-- They compare alike with the magnitudes of the format, and with what is in the middle between two neighbours. -/
theorem compare_mag (c : Nat) :
    ((f.mag c ≤ X ↔ f.mag c ≤ Y) ∧ (X ≤ f.mag c ↔ Y ≤ f.mag c)) ∧
    ∃ t, f.mag c + f.mag (c + 1) = 2 * t ∧ (t ≤ X ↔ t ≤ Y) ∧ (X ≤ t ↔ Y ≤ t) := by
  obtain ⟨k, j, rfl, hk, hj⟩ := f.exists_scaled c
  have hp : 2 ^ (f.fracBits + 2) = 2 * 2 ^ (f.fracBits + 1) := by ring
  have hmag := f.mag_scaled hk hj.le
  have hnext := f.mag_scaled (n := j + 1) (hk.imp_right (by omega)) (by omega)
  refine ⟨h.compare hmag (by omega), (2 * j + 1 : Nat) * 2 ^ (f.qmin + k - 1), ?_, h.compare rfl (by omega)⟩
  rw [Nat.add_assoc, hmag, hnext, zpow_sub_one₀ two_ne_zero]
  push_cast
  ring

theorem mag_eq_iff (c : Nat) : f.mag c = X ↔ f.mag c = Y := by
  obtain ⟨⟨hle, hge⟩, -⟩ := h.compare_mag c
  rw [le_antisymm_iff, le_antisymm_iff, hle, hge]

/-- A mode takes both to the same neighbour. -/
theorem roundsAway_iff (c : Nat) :
    RoundsAway rm neg c (f.mag c) (f.mag (c + 1)) X ↔ RoundsAway rm neg c (f.mag c) (f.mag (c + 1)) Y := by
  obtain ⟨-, t, ht, hle, hge⟩ := h.compare_mag c
  have heq := h.mag_eq_iff c
  have hmid : t = X ↔ t = Y := by rw [le_antisymm_iff, le_antisymm_iff, hle, hge]
  have two_inj (x y : ℝ) : 2 * x = 2 * y ↔ x = y := mul_right_inj' two_ne_zero
  cases rm <;> simp only [RoundsAway, ht, mul_lt_mul_iff_right₀ two_pos, mul_le_mul_iff_right₀ two_pos, two_inj, ne_eq,
    eq_comm (b := f.mag c), heq]
  case rne => rw [hmid, ← not_le, ← not_le, hge]
  case rmm => exact hle

theorem roundsOn_left (hr : RoundsOn f.mag rm neg Y n b) : RoundsOn f.mag rm neg X n b := by
  obtain ⟨hle, hlt, hv⟩ := hr
  refine ⟨(h.compare_mag n).1.1.2 hle, not_le.1 fun hx => hlt.not_ge ((h.compare_mag (n + 1)).1.1.1 hx), ?_⟩
  rwa [h.roundsAway_iff n]

/-- They reach the same powers of two. -/
theorem reachesPower_iff (k : ℤ) :
    ReachesPower f rm (signUnit neg * X) k ↔ ReachesPower f rm (signUnit neg * Y) k := by
  obtain ⟨hX, hY⟩ := h.pos
  have hone := h.compare (t := (2 : ℝ) ^ k) (j := 1) (c := k) (by simp) (Nat.one_lt_two_pow (by omega))
  have below (i : Nat) (hi : i ≤ f.fracBits + 2) :=
    h.compare (t := (2 : ℝ) ^ k - 2 ^ (k - i)) (j := 2 ^ i - 1) (c := k - i)
      (by
        have hpow : (2 : ℝ) ^ k = 2 ^ i * 2 ^ (k - i) := by
          rw [← zpow_natCast, ← zpow_add₀ two_ne_zero]
          congr 1
          omega
        rw [hpow]
        push_cast [Nat.one_le_two_pow]
        ring)
      (by have := Nat.pow_le_pow_right two_pos hi; have := Nat.two_pow_pos i; omega)
  rcases towardZero_or_fromZero_or_toNearest rm neg with hd | hd | hd
  · rw [reachesPower_iff_of_towardZero hX hd, reachesPower_iff_of_towardZero hY hd, hone.1]
  · have := (below (f.fracBits + 1) (by omega)).2
    rw [show k - (f.fracBits + 1 : Nat) = k - 1 - f.fracBits by push_cast; ring] at this
    rw [reachesPower_iff_of_fromZero hX hd, reachesPower_iff_of_fromZero hY hd, ← not_le, ← not_le, this]
  · have := (below (f.fracBits + 2) le_rfl).1
    rw [show k - (f.fracBits + 2 : Nat) = k - 2 - f.fracBits by push_cast; ring] at this
    rw [reachesPower_iff_of_toNearest hX hd, reachesPower_iff_of_toNearest hY hd, this]

end Indistinct

/-- Rounding a number rounds every number that is not told apart from it. -/
theorem Fmt.round_correct_of_indistinct (hf : f.Regular) (rm : RoundMode) (neg : Bool) {m : Nat} {e : Int} (hm : 0 < m)
    (h : Indistinct f d X (m * 2 ^ e)) : CorrectlyRounded f rm (signUnit neg * X) (f.round rm neg m e) := by
  obtain ⟨hX, hY⟩ := h.pos
  obtain ⟨n, hr, -⟩ := f.roundBits_rounds hf rm neg hm e
  have hrX := h.roundsOn_left hr
  obtain ⟨-, hneg, hnx, hof, huf, hinv⟩ := Fmt.round_correct hf rm neg hm e
  have hval : valueOf f (f.round rm neg m e).1 = some (signUnit neg * X) ↔
      valueOf f (f.round rm neg m e).1 = some (signUnit neg * (m * 2 ^ e)) := by
    rw [Fmt.round_eq hm, valueOf_finish_iff hf hrX, valueOf_finish_iff hf hr, h.mag_eq_iff]
  refine ⟨?_, fun _ => ?_, ?_, ?_, ?_, hinv⟩
  · rw [Fmt.round_eq hm]
    exact rounds_of_roundsOn hf hX hrX ((Fmt.overflow_iff hf rm neg hm e).trans (h.reachesPower_iff _).symm)
  · rw [hneg (mul_ne_zero (signUnit_ne_zero neg) hY.ne')]
    simp only [signUnit_mul_lt_zero neg hX, signUnit_mul_lt_zero neg hY]
  · rw [hnx, ne_eq, ne_eq, hval]
  · rw [hof, h.reachesPower_iff]
  · rw [huf, ne_eq, ne_eq, hval, h.reachesPower_iff]

/-- A number t between whole numbers N and N + 1, and N with one more bit that says whether t is above it. -/
theorem indistinct_sticky {t : ℝ} {N M : Nat} (hlarge : 2 ^ (f.fracBits + 2) ≤ N) (hlt : t < N + 1)
    (hM : ((N : ℝ) = t ∧ M = 2 * N) ∨ ((N : ℝ) < t ∧ M = 2 * N + 1)) :
    Indistinct f d (t * 2 ^ d) (M * 2 ^ (d - 1)) := by
  have hu : (0 : ℝ) < 2 ^ d := zpow_pos two_pos _
  have hY : (M : ℝ) * 2 ^ (d - 1) = M / 2 * 2 ^ d := by
    rw [zpow_sub_one₀ two_ne_zero]
    ring
  have hle : (N : ℝ) ≤ t := hM.elim (fun h => h.1.le) fun h => h.1.le
  rw [hY]
  refine ⟨mul_le_mul_of_nonneg_right (le_trans (by exact_mod_cast hlarge) hle) hu.le, fun j => ?_, fun j => ?_⟩ <;>
    rw [mul_le_mul_iff_left₀ hu, mul_le_mul_iff_left₀ hu]
  · have hj : (j : ℝ) ≤ t ↔ j ≤ N := by
      refine ⟨fun h => ?_, fun h => le_trans (by exact_mod_cast h) hle⟩
      have : j < N + 1 := by exact_mod_cast h.trans_lt hlt
      omega
    rw [hj, le_div_iff₀ two_pos]
    norm_cast
    omega
  · rw [div_le_iff₀ two_pos]
    obtain ⟨rfl, rfl⟩ | ⟨hgt, rfl⟩ := hM
    · norm_cast
      omega
    · have hj : t ≤ j ↔ N < j := by
        refine ⟨fun h => by exact_mod_cast hgt.trans_le h, fun h => hlt.le.trans ?_⟩
        exact_mod_cast h
      rw [hj]
      norm_cast
      omega

end Sys2Proof.Machine
end

section
/-! SUPPORT. Quotients and square roots are correctly rounded (44_f.md R329, R330; 45_d.md R369, R370; log 14). -/

namespace Sys2Proof.Machine

open Sys2Proof.Claims

variable {f : Fmt} {rm : RoundMode} {neg : Bool} {a b : Nat} {p q : ℝ}

/-! ### Zero -/

theorem not_reachesPower_zero (f : Fmt) (rm : RoundMode) (k : ℤ) : ¬ReachesPower f rm 0 k := by
  have h0 : (0 : ℝ) < 2 ^ k := zpow_pos two_pos _
  have h1 : (2 : ℝ) ^ (k - 1 - f.fracBits) < 2 ^ k := zpow_lt_zpow_right₀ one_lt_two (by omega)
  have h2 : (2 : ℝ) ^ (k - 2 - f.fracBits) < 2 ^ k := zpow_lt_zpow_right₀ one_lt_two (by omega)
  cases rm <;> simp only [ReachesPower, abs_zero, lt_irrefl, if_false, not_le, not_lt] <;> linarith

theorem overflowBound_pos (f : Fmt) : 0 < overflowBound f :=
  sub_pos.2 (zpow_lt_zpow_right₀ one_lt_two (by omega))

/-- A zero of either sign, without a flag, is zero correctly rounded. -/
theorem Fmt.zero_correct (hf : f.Regular) (rm : RoundMode) (neg : Bool) :
    CorrectlyRounded f rm 0 (f.withSign neg 0, 0) := by
  have hv : valueOf f (f.withSign neg 0) = some 0 := by
    rw [Fmt.valueOf_withSign hf neg hf.infBits_pos, Fmt.mag_zero, mul_zero]
  have hnear (tie : ℝ → ℝ → Prop) : RoundedNearest f 0 (f.withSign neg 0) tie := by
    refine .inl ⟨by simpa using overflowBound_pos f, 0, hv, fun c w _ => ⟨by simp, fun he hne => absurd ?_ hne⟩⟩
    simpa [eq_comm] using he
  have hdown : RoundedDown f 0 (f.withSign neg 0) := .inl ⟨0, hv, le_rfl, fun _ _ _ hw => hw⟩
  have hup : RoundedUp f 0 (f.withSign neg 0) := .inl ⟨0, hv, le_rfl, fun _ _ _ hw => hw⟩
  have hno := not_reachesPower_zero f rm
  refine ⟨?_, fun h => absurd rfl h, by simp [hv], by simp [hno], by simp [hv], by simp⟩
  cases rm with
  | rne => exact hnear _
  | rmm => exact hnear _
  | rdn => exact hdown
  | rup => exact hup
  | rtz =>
    rw [Rounds, if_pos le_rfl]
    exact hdown

/-! ### Quotients -/

/-- A quotient of numbers that are not zero. -/
theorem Fmt.quotFin_correct (hf : f.Regular) (rm : RoundMode) (neg : Bool) {ma mb : Nat} (ea eb : Int) (ha : 0 < ma)
    (hb : 0 < mb) : CorrectlyRounded f rm (signUnit neg * (ma / mb * 2 ^ (ea - eb))) (f.quotFin rm neg ma ea mb eb) := by
  obtain ⟨k, hk⟩ : ∃ k, k = f.fracBits + 4 + Nat.log2 mb := ⟨_, rfl⟩
  obtain ⟨t, ht⟩ : ∃ t : ℝ, t = (ma * 2 ^ k : Nat) / mb := ⟨_, rfl⟩
  have hb' : (0 : ℝ) < mb := by exact_mod_cast hb
  have hx : (ma : ℝ) / mb * 2 ^ (ea - eb) = t * 2 ^ (ea - eb - (k : Int)) := by
    rw [ht, zpow_sub₀ two_ne_zero _ (k : Int), zpow_natCast]
    push_cast
    field_simp
  have hlarge : 2 ^ (f.fracBits + 2) ≤ ma * 2 ^ k / mb := by
    rw [Nat.le_div_iff_mul_le hb]
    have hlog : mb < 2 ^ (mb.log2 + 1) := Nat.lt_log2_self
    calc 2 ^ (f.fracBits + 2) * mb ≤ 2 ^ (f.fracBits + 2) * 2 ^ (mb.log2 + 1) := Nat.mul_le_mul_left _ hlog.le
      _ = 2 ^ (f.fracBits + 2 + (mb.log2 + 1)) := (pow_add ..).symm
      _ ≤ 2 ^ k := Nat.pow_le_pow_right two_pos (by omega)
      _ ≤ ma * 2 ^ k := Nat.le_mul_of_pos_left _ ha
  have hsplit : t * mb = mb * (ma * 2 ^ k / mb : Nat) + (ma * 2 ^ k % mb : Nat) := by
    rw [ht, div_mul_cancel₀ _ hb'.ne']
    exact_mod_cast (Nat.div_add_mod _ _).symm
  have hrem : ((ma * 2 ^ k % mb : Nat) : ℝ) < mb := by exact_mod_cast Nat.mod_lt _ hb
  have hround : f.quotFin rm neg ma ea mb eb = f.round rm neg
      (2 * (ma * 2 ^ k / mb) + (if ma * 2 ^ k % mb = 0 then 0 else 1)) (ea - eb - (k : Int) - 1) := by
    rw [hk]
    rfl
  generalize ma * 2 ^ k / mb = N at *
  generalize ma * 2 ^ k % mb = R at *
  have hN : 0 < N := (Nat.two_pow_pos _).trans_le hlarge
  rw [hround, hx]
  refine Fmt.round_correct_of_indistinct hf rm neg (by omega) (indistinct_sticky hlarge (by nlinarith) ?_)
  by_cases hR : R = 0
  · refine .inl ⟨?_, by rw [if_pos hR, add_zero]⟩
    rw [hR, Nat.cast_zero, add_zero, mul_comm] at hsplit
    exact (mul_left_cancel₀ hb'.ne' hsplit).symm
  · refine .inr ⟨?_, by rw [if_neg hR]⟩
    have : (0 : ℝ) < R := by exact_mod_cast Nat.pos_of_ne_zero hR
    nlinarith

/-! ### Square roots -/

/-- Found bit by bit, the largest r with r² at most n. -/
theorem isqrtFrom_eq (n b r : Nat) (hlo : r * r ≤ n) (hhi : n < (r + 2 ^ b) * (r + 2 ^ b)) : isqrtFrom n b r = Nat.sqrt n := by
  induction b generalizing r with
  | zero => exact Nat.eq_sqrt.2 ⟨hlo, hhi⟩
  | succ b ih =>
    rw [isqrtFrom]
    split_ifs with h
    · exact ih _ h (by rwa [Nat.add_assoc, ← Nat.two_mul, ← pow_succ'])
    · exact ih _ hlo (not_le.1 h)

theorem isqrt_eq (n : Nat) : isqrt n = Nat.sqrt n := by
  refine isqrtFrom_eq n _ 0 (Nat.zero_le _) ?_
  rw [Nat.zero_add, ← pow_add]
  exact Nat.lt_log2_self.trans_le (Nat.pow_le_pow_right two_pos (by omega))

/-- A root of a number that is not zero. -/
theorem Fmt.rootFin_correct (hf : f.Regular) (rm : RoundMode) {m : Nat} (e : Int) (hm : 0 < m) :
    CorrectlyRounded f rm (Real.sqrt (m * 2 ^ e)) (f.rootFin rm m e) := by
  obtain ⟨k, hk⟩ : ∃ k : Nat, k = 2 * (f.fracBits + 4) + (e % 2).toNat := ⟨_, rfl⟩
  obtain ⟨d, hd⟩ : ∃ d : Int, d = (e - (k : Int)) / 2 := ⟨_, rfl⟩
  have hround : f.rootFin rm m e = f.round rm false
      (2 * isqrt (m * 2 ^ k) + (if isqrt (m * 2 ^ k) * isqrt (m * 2 ^ k) = m * 2 ^ k then 0 else 1)) (d - 1) := by
    rw [hd, hk]
    rfl
  have hx : Real.sqrt (m * 2 ^ e) = signUnit false * (Real.sqrt (m * 2 ^ k : Nat) * 2 ^ d) := by
    have he : e = k + (d + d) := by omega
    have hsq : (m : ℝ) * 2 ^ e = (m * 2 ^ k : Nat) * (2 ^ d) ^ 2 := by
      rw [he, zpow_add₀ two_ne_zero, zpow_add₀ two_ne_zero, zpow_natCast]
      push_cast
      ring
    rw [hsq, Real.sqrt_mul (Nat.cast_nonneg _), Real.sqrt_sq (zpow_nonneg two_pos.le _), signUnit_false, one_mul]
  have hlarge : 2 ^ (f.fracBits + 2) ≤ Nat.sqrt (m * 2 ^ k) := by
    rw [Nat.le_sqrt, ← pow_add]
    exact (Nat.pow_le_pow_right two_pos (by omega)).trans (Nat.le_mul_of_pos_left _ hm)
  rw [hround, hx, isqrt_eq]
  generalize m * 2 ^ k = n at *
  have hN : 0 < Nat.sqrt n := (Nat.two_pow_pos _).trans_le hlarge
  refine Fmt.round_correct_of_indistinct hf rm false (by omega) (indistinct_sticky hlarge Real.real_sqrt_lt_nat_sqrt_succ ?_)
  by_cases hs : Nat.sqrt n * Nat.sqrt n = n
  · refine .inl ⟨?_, by rw [if_pos hs, add_zero]⟩
    have hn : ((Nat.sqrt n : ℝ)) * Nat.sqrt n = n := by exact_mod_cast hs
    rw [← Real.sqrt_mul_self (Nat.cast_nonneg (Nat.sqrt n)), hn]
  · refine .inr ⟨Real.nat_sqrt_le_real_sqrt.lt_of_ne fun he => hs ?_, by rw [if_neg hs]⟩
    have hn : ((Nat.sqrt n : ℝ)) * Nat.sqrt n = n := by rw [he, Real.mul_self_sqrt (Nat.cast_nonneg _)]
    exact_mod_cast hn

/-! ### Division and square root of patterns -/

section Div

variable (ha : valueOf f a = some p) (hb : valueOf f b = some q)
include ha hb

theorem Fmt.div_correct (hf : f.Regular) (hq : q ≠ 0) :
    CorrectlyRounded f rm (p / q) (f.div rm a b) ∧ f.neg (f.div rm a b).1 = (f.neg a != f.neg b) := by
  obtain ⟨ma, ea, hda, rfl⟩ := exists_datum_of_valueOf ha
  obtain ⟨mb, eb, hdb, rfl⟩ := exists_datum_of_valueOf hb
  rw [ne_eq, signUnit_mul_eq_zero] at hq
  have hdiv : f.div rm a b = f.quotFin rm (f.neg a != f.neg b) ma ea mb eb := by
    rw [Fmt.div, hda, hdb]
    exact if_neg hq
  have hsign : signUnit (f.neg a) / signUnit (f.neg b) = signUnit (f.neg a != f.neg b) := by
    cases f.neg a <;> cases f.neg b <;> simp
  have hx : signUnit (f.neg a) * (ma * 2 ^ ea) / (signUnit (f.neg b) * (mb * 2 ^ eb)) =
      signUnit (f.neg a != f.neg b) * (ma / mb * 2 ^ (ea - eb)) := by
    rw [← hsign, zpow_sub₀ two_ne_zero]
    ring
  rw [hdiv, hx]
  rcases Nat.eq_zero_or_pos ma with rfl | hma
  · have hz : f.quotFin rm (f.neg a != f.neg b) 0 ea mb eb = (f.withSign (f.neg a != f.neg b) 0, 0) := by
      simp [Fmt.quotFin, Fmt.round]
    rw [hz, Nat.cast_zero, zero_div, zero_mul, mul_zero]
    exact ⟨Fmt.zero_correct hf rm _, f.neg_withSign _ (Nat.two_pow_pos _)⟩
  · have hcorrect := Fmt.quotFin_correct hf rm (f.neg a != f.neg b) ea eb hma (Nat.pos_of_ne_zero hq)
    have hpos : 0 < (ma : ℝ) / mb * 2 ^ (ea - eb) := by
      have := Nat.pos_of_ne_zero hq
      positivity
    have hneg := hcorrect.2.1 (mul_ne_zero (signUnit_ne_zero _) hpos.ne')
    refine ⟨hcorrect, hneg.trans ?_⟩
    simp only [signUnit_mul_lt_zero _ hpos, Bool.decide_eq_true]

theorem Fmt.div_zero (hq : q = 0) :
    (p ≠ 0 → f.div rm a b = (f.withSign (f.neg a != f.neg b) f.infBits, flagDZ)) ∧
    (p = 0 → f.div rm a b = f.nanResult true) := by
  obtain ⟨ma, ea, hda, rfl⟩ := exists_datum_of_valueOf ha
  obtain ⟨mb, eb, hdb, rfl⟩ := exists_datum_of_valueOf hb
  obtain rfl := signUnit_mul_eq_zero.1 hq
  rw [ne_eq, signUnit_mul_eq_zero, Fmt.div, hda, hdb]
  exact ⟨fun hp => if_neg hp, fun hp => if_pos hp⟩

end Div

/-- The square root of a number: of a zero, of a positive and of a negative one. -/
theorem Fmt.sqrt_correct (hf : f.Regular) (ha : valueOf f a = some p) :
    (0 ≤ p → CorrectlyRounded f rm (Real.sqrt p) (f.sqrt rm a)) ∧
    (p = 0 → f.sqrt rm a = (f.withSign (f.neg a) 0, 0)) ∧
    (p < 0 → f.sqrt rm a = f.nanResult true) := by
  have hsign := neg_iff_lt_zero ha
  obtain ⟨m, e, hd, hp⟩ := exists_datum_of_valueOf ha
  have hz : p = 0 ↔ m = 0 := by rw [hp, signUnit_mul_eq_zero]
  have hsqrt : f.sqrt rm a = if m = 0 then (f.withSign (f.neg a) 0, 0)
      else if f.neg a then f.nanResult true else f.rootFin rm m e := by rw [Fmt.sqrt, hd]
  have hzero : p = 0 → f.sqrt rm a = (f.withSign (f.neg a) 0, 0) := fun h => by rw [hsqrt, if_pos (hz.1 h)]
  refine ⟨fun h => ?_, hzero, fun h => by rw [hsqrt, if_neg (mt hz.2 h.ne), if_pos ((hsign h.ne).2 h)]⟩
  rcases h.eq_or_lt with h | h
  · rw [hzero h.symm, ← h, Real.sqrt_zero]
    exact Fmt.zero_correct hf rm _
  · have hn : f.neg a = false := by rw [← Bool.not_eq_true, hsign h.ne']; exact h.not_gt
    have hm := mt hz.2 h.ne'
    rw [hsqrt, if_neg hm, if_neg (by simp [hn]), hp, hn, signUnit_false, one_mul]
    exact Fmt.rootFin_correct hf rm e (Nat.pos_of_ne_zero hm)

/-- Settles O46: both by rounding a longer significand. -/
theorem quotientAndRootAreCorrect : Obligations.QuotientAndRootAreCorrect := by
  intro f rm a b p q hstd ha hb
  have hf := Fmt.regular_of_standard hstd
  exact ⟨Fmt.div_correct ha hb hf, fun hq => (Fmt.div_zero ha hb hq).1, fun hq => (Fmt.div_zero ha hb hq).2,
    Fmt.sqrt_correct hf ha⟩

end Sys2Proof.Machine
end

section
/-! SUPPORT. Conversion to an integer: rounding to a whole number, saturation, flags and the rows (44_f.md R336, R337, R346, R347;
45_d.md R382, R383, R386, R387). -/

namespace Sys2Proof.Machine

open Sys2Proof.Claims

variable {f : Fmt} {rm : RoundMode} {neg : Bool} {y : ℝ} {n k : Nat} {lo hi : Int} {a : Nat}

/-! ### Rounding to a whole number -/

section Whole

variable (h : RoundsOn (fun j : Nat => (j : ℝ)) rm neg y n k)
include h

theorem floor_eq_of_towardZero (hd : TowardZero rm neg) : ⌊y⌋ = (k : Int) := by
  have hk : k = n := h.value.elim (fun hv => absurd hv.1 hd.not_roundsAway) fun hv => hv.2
  have hlt := h.lt
  push_cast at hlt
  rw [hk, Int.floor_eq_iff]
  exact ⟨by exact_mod_cast h.le, by exact_mod_cast hlt⟩

theorem ceil_eq_of_fromZero (hd : FromZero rm neg) : ⌈y⌉ = (k : Int) := by
  have hle := h.le
  have hlt := h.lt
  push_cast at hlt
  rw [Int.ceil_eq_iff]
  obtain ⟨ha, rfl⟩ | ⟨ha, rfl⟩ := h.value
  · have hne := hle.lt_of_ne' (hd.roundsAway_iff.1 ha)
    push_cast
    exact ⟨by linarith, hlt.le⟩
  · have he := not_not.1 (mt hd.roundsAway_iff.2 ha)
    push_cast
    exact ⟨by linarith, he.le⟩

/-- To nearest, the result is at most half a unit away; a tie is decided as the mode says. -/
theorem nearest_whole (hd : ToNearest rm) :
    |y - k| ≤ 1 / 2 ∧ (|y - k| = 1 / 2 → (rm = .rne → k % 2 = 0) ∧ (rm = .rmm → y < k)) := by
  have hle := h.le
  have hlt := h.lt
  have hmid := hd.middle (neg := neg) (n := n) (a := n) (c := (n + 1 : Nat)) (x := y)
  push_cast at hlt hmid
  obtain ⟨ha, rfl⟩ | ⟨ha, rfl⟩ := h.value
  · have hup := hmid.1 (by push_cast at ha; exact ha)
    rw [abs_of_nonpos (by push_cast; linarith)]
    push_cast
    refine ⟨by linarith, fun he => ⟨?_, fun _ => hlt⟩⟩
    rintro rfl
    obtain ha | ⟨-, ha⟩ := ha
    · push_cast at ha
      linarith
    · omega
  · have hdown := hmid.2 (by push_cast at ha; exact ha)
    rw [abs_of_nonneg (by linarith)]
    refine ⟨by linarith, fun he => ⟨?_, ?_⟩⟩
    · rintro rfl
      have : ¬k % 2 = 1 := fun ho => ha (.inr ⟨by push_cast; linarith, ho⟩)
      omega
    · rintro rfl
      exact absurd (show ((k : ℝ)) + (k + 1 : Nat) ≤ 2 * y by push_cast; linarith) ha

/-- A magnitude rounded to a whole number, with its sign, is the number rounded to an integer. -/
theorem roundsToInt_of_roundsOn : RoundsToInt rm (signUnit neg * y) (signedNat neg k) := by
  have hy : 0 ≤ y := (Nat.cast_nonneg n).trans h.le
  rcases towardZero_or_fromZero_or_toNearest rm neg with hd | hd | hd
  · have hfloor := floor_eq_of_towardZero h hd
    obtain rfl | ⟨rfl, rfl⟩ | ⟨rfl, rfl⟩ := hd
    · cases neg with
      | false => simp [RoundsToInt, signedNat, hy, hfloor]
      | true =>
        rcases hy.eq_or_lt with rfl | hy
        · simpa [RoundsToInt, signedNat] using hfloor.symm
        · simp [RoundsToInt, signedNat, hy, Int.ceil_neg, hfloor]
    · simp [RoundsToInt, signedNat, hfloor]
    · simp [RoundsToInt, signedNat, Int.ceil_neg, hfloor]
  · have hceil := ceil_eq_of_fromZero h hd
    obtain ⟨rfl, rfl⟩ | ⟨rfl, rfl⟩ := hd
    · simp [RoundsToInt, signedNat, Int.floor_neg, hceil]
    · simp [RoundsToInt, signedNat, hceil]
  · obtain ⟨hhalf, htie⟩ := nearest_whole h hd
    have hdist : |signUnit neg * y - (signedNat neg k : Int)| = |y - k| := by
      rw [signedNat_cast, ← mul_sub, abs_signUnit_mul]
    have heven : signedNat neg k % 2 = 0 ↔ k % 2 = 0 := by cases neg <;> simp only [signedNat] <;> omega
    have habs : |signUnit neg * y| < |((signedNat neg k : Int) : ℝ)| ↔ y < k := by
      rw [signedNat_cast, abs_signUnit_mul, abs_signUnit_mul, abs_of_nonneg hy, abs_of_nonneg (Nat.cast_nonneg k)]
    obtain rfl | rfl := hd
    · simp only [RoundsToInt, hdist, heven]
      exact ⟨hhalf, fun he => (htie he).1 rfl⟩
    · simp only [RoundsToInt, hdist, habs]
      exact ⟨hhalf, fun he => (htie he).2 rfl⟩

end Whole

/-! ### Saturation -/

/-- What a conversion to the range lo..hi gives and raises for a pattern. -/
def ConvertsToInt (f : Fmt) (rm : RoundMode) (lo hi : Int) (a : Nat) (v : Int) (raised : FlagBits) : Prop :=
  match f.datum a with
  | .nan _ => v = hi ∧ raised = flagNV
  | .inf neg => v = (if neg then lo else hi) ∧ raised = flagNV
  | .fin _ _ _ =>
    ∃ (x : ℝ) (k : Int), valueOf f a = some x ∧ RoundsToInt rm x k ∧ v = max lo (min hi k) ∧
      (k < lo ∨ hi < k → raised = flagNV) ∧ (lo ≤ k → k ≤ hi → (k : ℝ) = x → raised = 0) ∧
      (lo ≤ k → k ≤ hi → (k : ℝ) ≠ x → raised = flagNX)

theorem Fmt.toInt_convertsToInt (hle : lo ≤ hi) :
    ConvertsToInt f rm lo hi a (f.toInt rm lo hi a).1 (f.toInt rm lo hi a).2 := by
  unfold ConvertsToInt Fmt.toInt
  cases hd : f.datum a with
  | nan s => exact ⟨rfl, rfl⟩
  | inf neg => exact ⟨rfl, rfl⟩
  | fin neg m e =>
    obtain ⟨n, hr, hx⟩ := roundAt_rounds rm neg m e 0
    rw [sub_zero] at hr hx
    have hexact : ((signedNat neg (roundAt rm neg m e 0).1 : Int) : ℝ) = signUnit neg * (m * 2 ^ e) ↔
        (roundAt rm neg m e 0).2 = false := by
      rw [signedNat_cast, signUnit_mul_right_inj, ← Bool.not_eq_true, hx, not_not]
    have hint := roundsToInt_of_roundsOn hr
    simp only
    generalize signedNat neg (roundAt rm neg m e 0).1 = k at *
    refine ⟨_, k, by rw [valueOf, hd]; exact congrArg some (mul_assoc ..), hint, ?_, fun h => ?_, fun h1 h2 he => ?_,
      fun h1 h2 he => ?_⟩
    · split_ifs <;> simp only <;> omega
    · by_cases hlo : k < lo
      · rw [if_pos hlo]
      · rw [if_neg hlo, if_pos (h.resolve_left hlo)]
    · rw [if_neg (by omega), if_neg (by omega), hexact.1 he]
      rfl
    · rw [if_neg (by omega), if_neg (by omega), if_pos (by simpa using mt hexact.2 he)]

/-! ### Rows -/

section Rows

variable {s : State} {i : Instr} {rd : Reg} {m : BitVec 3} {signed : Bool} {w : Nat} {t : RoundMode → Result}

theorem intValue_mod_size (s : State) (hw : w ≤ 64) (v : Int) : ((s.intValue w v).toNat : Int) % size s = wrap w v % size s := by
  rw [State.intValue, Xlen.sext_toNat _ _ hw, size, Int.emod_emod, BitVec.toInt_ofInt, wrap]

/-- A row that converts to w bits: the saturated integer, with the range of its kind. -/
theorem convertsToInt_row (hr : s.rounding m = some rm) (hw : w ≤ 64) (h : exec i s = s.withRounding m t)
    (ht : t rm = s.setXF rd accInt (s.intValue w (toIntResult f rm signed w a).1) (toIntResult f rm signed w a).2 i) :
    ∃ (lo hi v : Int) (raised : BitVec 5),
      lo = (if signed = true then -2 ^ (w - 1) else 0) ∧ hi = (if signed = true then 2 ^ (w - 1) - 1 else 2 ^ w - 1) ∧
      ComputesXF i s rd (wrap w v) (cellOf true false false false true) raised ∧ ConvertsToInt f rm lo hi a v raised := by
  have hrow := computesXF_of (h.trans ((State.withRounding_of_some hr).trans ht)) (intValue_mod_size s hw _)
  have hp : (0 : Int) < 2 ^ (w - 1) := by positivity
  have hq : (0 : Int) < 2 ^ w := by positivity
  refine ⟨_, _, _, _, rfl, rfl, hrow, ?_⟩
  cases signed with
  | true => exact Fmt.toInt_convertsToInt (show -2 ^ (w - 1) ≤ (2 : Int) ^ (w - 1) - 1 by omega)
  | false => exact Fmt.toInt_convertsToInt (show (0 : Int) ≤ 2 ^ w - 1 by omega)

end Rows

/-- Settles O39: each row converts to its width, signed or not. -/
theorem floatToInteger : Obligations.FloatToInteger := by
  intro s rd rs1 rm r hr i f a signed n h
  obtain ⟨rfl, rfl, rfl, rfl, rfl⟩ | ⟨rfl, rfl, rfl, rfl, rfl⟩ | ⟨-, rfl, rfl, rfl, rfl, rfl⟩ | ⟨-, rfl, rfl, rfl, rfl, rfl⟩ |
    ⟨-, rfl, rfl, rfl, rfl, rfl⟩ | ⟨-, rfl, rfl, rfl, rfl, rfl⟩ | ⟨-, -, rfl, rfl, rfl, rfl, rfl⟩ |
    ⟨-, -, rfl, rfl, rfl, rfl, rfl⟩ := h
  all_goals exact convertsToInt_row hr (by omega) rfl rfl

end Sys2Proof.Machine
end

section
/-! SUPPORT. Double-precision arithmetic and the conversions that round (45_d.md R362 to R370, R376, R377, R384, R385, R389,
R390). -/

namespace Sys2Proof.Machine

open Sys2Proof.Claims

/-- A row with a rounding mode that is not reserved computes its double-precision result in that mode. -/
theorem computesD_rounded {s : State} {i : Instr} {rd : Reg} {cell : FlagBits} {rm : BitVec 3} {r : RoundMode}
    {k : RoundMode → Result} {res : FpResult} (hd : s.params.ext.d = true) (hr : s.rounding rm = some r)
    (h : exec i s = s.withRounding rm k) (hk : k r = s.setD rd cell res i) : ComputesD i s rd cell res :=
  computesD_of hd (h.trans ((State.withRounding_of_some hr).trans hk))

/-- Settles O36: each row by its result, into a register that D makes 64 bits wide; only FCVT.S.D is boxed. An integer operand
is the low 32 bits or all of x[rs1], signed or not. -/
theorem doubleArithmetic : Obligations.DoubleArithmetic := by
  intro s rd rs1 rs2 rs3 rm r hd hr
  rw [sw_eq, uw_eq]
  refine ⟨computesD_rounded hd hr rfl rfl, computesD_rounded hd hr rfl rfl, computesD_rounded hd hr rfl rfl,
    computesD_rounded hd hr rfl rfl, computesD_rounded hd hr rfl rfl, computesD_rounded hd hr rfl rfl,
    computesD_rounded hd hr rfl rfl, computesD_rounded hd hr rfl rfl, computesD_rounded hd hr rfl rfl,
    computesS_rounded hr rfl rfl, computesD_rounded hd hr rfl rfl, computesD_rounded hd hr rfl rfl,
    computesD_rounded hd hr rfl rfl, fun hx => ?_⟩
  rw [sx_of_rv64 hx]
  exact ⟨computesD_rounded hd hr rfl rfl, computesD_rounded hd hr rfl rfl⟩

end Sys2Proof.Machine
end

section
/-! SUPPORT. Where no instruction runs, the hart that a step changes, and what stops jumps, branches, loads and stores
(60_exceptions.md R401, R403, R409, R412). -/

namespace Sys2Proof.Machine

open Sys2Proof.Claims

variable {s t : State} {i : Instr} {rd rs1 rs2 : Reg} {a n : Nat}

/-! ### A turn without an instruction -/

theorem State.turn_ended (he : s.hart.ended = true) : s.turn = .next s := if_pos he

theorem State.turn_atEnd (he : s.hart.ended = false) (ha : s.atEnd = true) : s.turn = .next s.endStream := by
  rw [State.turn, he, if_neg Bool.false_ne_true, if_pos ha]

/-- What stops the fetch stops the step. -/
theorem step_of_fetch_error {st : Stop} (he : s.hart.ended = false) (ha : s.atEnd = false) (hf : s.fetch = .error st) :
    step s = st.result := by
  have ht : s.turn = st.result := by simp [State.turn, he, ha, hf]
  rw [step, ht]
  cases st <;> rfl

theorem State.fetch_written (hw : s.written s.pc.toNat 4 = true) : s.fetch = .error (.fault .storeToText) := if_pos hw

theorem State.fetch_undecoded {d : DecodeError} (hw : s.written s.pc.toNat 4 = false)
    (hd : decodeBytes s.xlen s.params.ext (s.textBytes s.pc.toNat 4) = .error d) : s.fetch = .error (stopOfDecode d) := by
  simp [State.fetch, hw, hd]

theorem stopOfDecode_of_ne_compressed {d : DecodeError} (h : d ≠ .compressed) : stopOfDecode d = .fault .noInstruction := by
  cases d with
  | compressed => exact absurd rfl h
  | truncated | noRow | notPresent => rfl

/-- The two low bits of a word are those of its first byte. -/
theorem wordOfBytes_low (b0 b1 b2 b3 : Byte) : (wordOfBytes b0 b1 b2 b3).extractLsb' 0 2 = b0.extractLsb' 0 2 := by
  apply BitVec.eq_of_toNat_eq
  simp only [wordOfBytes, append_toNat, extract_toNat]
  omega

/-- Two bytes are enough to tell a 16-bit instruction (30_encoding.md R147). -/
theorem decodeBytes_compressed {x : Xlen} {e : Ext} {b0 b1 : Byte} (more : List Byte) (h : b0.extractLsb' 0 2 ≠ 3) :
    decodeBytes x e (b0 :: b1 :: more) = .error .compressed := by
  match more with
  | [] | [_] => exact if_pos h
  | b2 :: b3 :: _ => exact decodeBytes_of_error rfl (if_pos (wordOfBytes_low b0 b1 b2 b3 ▸ h))

/-- Settles O8: a turn that fetches nothing by the hart's state, any other by what stops its fetch. -/
theorem stepsWithoutInstruction : Obligations.StepsWithoutInstruction := by
  refine fun s => ⟨State.turn_ended, State.turn_atEnd, fun he ha => ⟨fun hw => ?_, fun hw => ⟨fun d hd hne => ?_,
    fun b0 b1 more ht h => ?_⟩⟩⟩
  · exact step_of_fetch_error he ha (State.fetch_written hw)
  · rw [step_of_fetch_error he ha (State.fetch_undecoded hw hd), stopOfDecode_of_ne_compressed hne]
    rfl
  · exact step_of_fetch_error he ha (State.fetch_undecoded hw (ht ▸ decodeBytes_compressed more h))

/-! ### The hart that steps -/

/-- A turn keeps the number and the program of its hart, and all of a hart that has ended. -/
theorem State.turn_hart (h : s.turn = .next t) :
    t.hart.id = s.hart.id ∧ t.hart.entry = s.hart.entry ∧ t.hart.len = s.hart.len ∧
      (s.hart.ended = true → t.hart = s.hart) := by
  obtain ⟨-, rfl⟩ | ⟨he, -, rfl⟩ | ⟨he, -, i, -, hx⟩ := State.turn_next h
  · exact ⟨rfl, rfl, rfl, fun _ => rfl⟩
  · exact ⟨rfl, rfl, rfl, fun he' => absurd he' (by simp [he])⟩
  · obtain ⟨-, -, -, hid, hentry, hlen, -⟩ := exec_kept hx
    exact ⟨hid, hentry, hlen, fun he' => absurd he' (by simp [he])⟩

/-- Settles O9: the turn keeps the parameters and the other harts, and then its hart goes to the end of the ring. -/
theorem turnChangesOneHart : Obligations.TurnChangesOneHart := by
  intro s t h
  obtain ⟨u, hu, rfl⟩ := step_next h
  obtain ⟨hp, -, -, -, -, hh⟩ := u.yield_fields
  obtain ⟨hup, huo⟩ := State.turn_outside hu
  exact ⟨hp.trans hup, u.hart, huo ▸ hh, State.turn_hart hu⟩

/-! ### Misaligned targets -/

section Target

variable {target : Word} {pc : Int}

theorem targetStop_misaligned (hc : s.params.ext.c = false) (hp : (target.toNat : Int) = pc) (h : pc % 4 ≠ 0) :
    s.targetStop target = some (.refused .targetMisaligned) := if_pos ⟨hc, by omega⟩

theorem jump_misaligned (hx : exec i s = s.jump rd target i) (hc : s.params.ext.c = false)
    (hp : (target.toNat : Int) = pc) (h : pc % 4 ≠ 0) : exec i s = .refused .targetMisaligned := by
  rw [hx, State.jump, targetStop_misaligned hc hp h]
  rfl

/-- Only a taken branch is asked for its target. -/
theorem branch_misaligned {b : Bool} {taken : Prop} (hx : exec i s = s.branch b target i) (hb : b = true ↔ taken)
    (hc : s.params.ext.c = false) (hp : (target.toNat : Int) = pc) (h : pc % 4 ≠ 0) (ht : taken) :
    exec i s = .refused .targetMisaligned := by
  rw [hx, State.branch, if_pos (hb.2 ht), targetStop_misaligned hc hp h]
  rfl

end Target

/-- Settles O21: the jumps by their targets, each branch by the test of `branchesGoOrFallThrough`. -/
theorem misalignedTargetsStop : Obligations.MisalignedTargetsStop := by
  intro s rd rs1 rs2 off boff imm hc
  refine ⟨jump_misaligned rfl hc (s.pcTarget_toNat off (by omega)), jump_misaligned rfl hc (indirectTarget_toNat rs1 imm),
    fun h => ?_⟩
  have hp : ((s.pcTarget boff).toNat : Int) = _ := s.pcTarget_toNat boff (by omega)
  exact ⟨branch_misaligned rfl (test_aluEq_iff rs1 rs2) hc hp h,
    branch_misaligned rfl (not_test_iff (test_aluEq_iff rs1 rs2)) hc hp h,
    branch_misaligned rfl (test_aluLt_iff rs1 rs2) hc hp h,
    branch_misaligned rfl ((not_test_iff (test_aluLt_iff rs1 rs2)).trans not_lt) hc hp h,
    branch_misaligned rfl (test_aluLtu_iff rs1 rs2) hc hp h,
    branch_misaligned rfl ((not_test_iff (test_aluLtu_iff rs1 rs2)).trans not_lt) hc hp h⟩

/-! ### Loads and stores -/

section Access

variable {k : Result} {o : Option Stop}

theorem State.alignStop_misaligned (h : ¬Allowed s a n) : s.alignStop a n = some (.refused .misalignedAccess) := by
  obtain ⟨hm, ha⟩ := not_or.1 h
  have hr : s.params.misaligned = .refuse := by
    cases hs : s.params.misaligned with
    | refuse => rfl
    | decompose => exact absurd hs hm
  exact if_pos ⟨hr, by simp [aligned, ha]⟩

theorem State.alignStop_allowed (h : Allowed s a n) : s.alignStop a n = none := State.alignStop_eq_none.2 h

/-- The top of memory is asked for after io (log 16). -/
theorem State.regionStop_pastTop (hm : ∀ k, k < n → regionOf s.params (a + k) = .main)
    (h : size s < ((a + n : Nat) : Int)) : s.regionStop a n = some (.fault .pastTop) := by
  have hio : ¬touchesIo s.params a n = true := by
    rw [touchesIo_iff]
    rintro ⟨k, hk, hr⟩
    exact Region.ne_io.2 (hm k hk) hr
  rw [size_eq_two_pow] at h
  rw [State.regionStop, if_neg hio, if_pos (by exact_mod_cast h)]

theorem firstStop_none (a : Option Stop) : firstStop a none = a := by cases a <;> rfl

/-- Alignment, io and the top are asked for in this order, whatever is asked for after them. -/
theorem loadStops_of_then (h : exec i s = orStop (firstStop (s.alignStop a n) (firstStop (s.regionStop a n) o)) k) :
    LoadStops i s a n := by
  refine ⟨fun ha => ?_, fun ha hio => ?_, fun ha hm htop => ?_⟩
  · rw [h, State.alignStop_misaligned ha]
    rfl
  · rw [h, State.alignStop_allowed ha, State.regionStop_io hio]
    rfl
  · rw [h, State.alignStop_allowed ha, State.regionStop_pastTop hm htop]
    rfl

theorem loadStops_of (h : exec i s = orStop (s.loadStop a n) k) : LoadStops i s a n :=
  loadStops_of_then (o := none) (by rw [h, State.loadStop, firstStop_none])

/-- A store is asked for fetched text last. -/
theorem storeStops_of (h : exec i s = orStop (s.storeStop a n) k) : StoreStops i s a n := by
  refine ⟨loadStops_of_then h, fun ha hm ht => ?_⟩
  rw [h, State.storeStop, State.alignStop_allowed ha, State.regionStop_inMain hm, State.textStop_fetched ht]
  rfl

end Access

/-- Settles O25: every row first asks what stops it, by its width. -/
theorem plainAccessStops : Obligations.PlainAccessStops :=
  fun _ _ _ _ _ => ⟨loadStops_of rfl, loadStops_of rfl, loadStops_of rfl, loadStops_of rfl, loadStops_of rfl,
    loadStops_of rfl, loadStops_of rfl, loadStops_of rfl, loadStops_of rfl, storeStops_of rfl, storeStops_of rfl,
    storeStops_of rfl, storeStops_of rfl, storeStops_of rfl, storeStops_of rfl⟩

/-! ### The end of a stream -/

/-- An instruction with an empty row of the listings that is the last of its stream leaves every dependency set as it was. -/
theorem deps_retireLast_of_empty (h : Instr.listing false i = .empty) :
    (s.retireLast i).hart.deps = s.hart.deps ∧ (s.retireLast i).hart.ctrl = s.hart.ctrl := by
  simp only [State.retireLast, Hart.advance, h]
  exact ⟨rfl, rfl⟩

/-- Settles O34: both are retired as the last of the stream, and their row of the listings is empty. -/
theorem ecallEbreakEndTheStream : Obligations.EcallEbreakEndTheStream := by
  refine ⟨fun s i h => ?_, ?_⟩
  · have hx : exec i s = .next (s.retireLast i) := by rcases h with rfl | rfl <;> rfl
    have hl : Instr.listing false i = .empty := by rcases h with rfl | rfl <;> rfl
    obtain ⟨hdeps, hctrl⟩ := deps_retireLast_of_empty (s := s) hl
    exact ⟨_, hx, rfl, s.retireLast_pc i, ⟨rfl, rfl, rfl, rfl, rfl, rfl⟩, s.retireLast_readX i, s.retireLast_readF i,
      ⟨rfl, rfl⟩, rfl, ⟨⟨rfl, rfl, rfl⟩, ⟨rfl, s.retireLast_byteAt i⟩, rfl, rfl⟩, hdeps, hctrl, State.turn_ended rfl⟩
  · rintro i ok (rfl | rfl) <;> exact ⟨rfl, rfl, rfl⟩

end Sys2Proof.Machine
end

section
/-! SUPPORT. A word placed at pc: it is listed text that no store has written, the hart is not at its end there, and the
bytes decode to the instruction (70_reset_and_hazards.md R431, 92_eei_decisions.md D18). -/

namespace Sys2Proof.Machine

open Sys2Proof.Claims

variable {s : State} {i : Instr}

/-! ### Listing and forgetting bytes -/

/-- INIT_MEM is listed as memory is written. -/
theorem listBytes_eq_write (m : List Host.Cell) (a : Nat) (bs : List Byte) : listBytes m a bs = Memory.write m a bs := by
  induction bs generalizing m a with
  | nil => rfl
  | cons b bs ih => exact ih _ _

/-- What is listed after listing bytes from an address on: these, and every other address as it was (log 29). -/
theorem get?_listBytes (m : List Host.Cell) (a : Nat) (bs : List Byte) (x : Nat) :
    Sparse.get? (α := Byte) (listBytes m a bs) x =
      if a ≤ x ∧ x < a + bs.length then bs[x - a]? else Sparse.get? (α := Byte) m x := by
  rw [listBytes_eq_write]
  exact Memory.at?_write m a bs x

/-- What forgetting leaves at every address: nothing in the range, and every other address as it was. -/
theorem Memory.at?_forget {m : Memory} (h : m.wf) (a n x : Nat) :
    (m.forget a n).at? x = if a ≤ x ∧ x < a + n then none else m.at? x := by
  induction n generalizing m a with
  | zero => exact (if_neg (by omega)).symm
  | succ n ih =>
    rw [Memory.forget, ih (Sparse.wf_del h a), Memory.at?, Sparse.get?_del h]
    by_cases hax : a = x
    · rw [if_pos hax, ite_self, if_pos (by omega)]
    · rw [if_neg hax, Memory.at?]
      exact if_congr (by omega) rfl rfl

/-- Where every byte of a list is listed, below the top of the address space, the list is the text. -/
theorem State.textBytes_of_listed {a : Nat} {bs : List Byte} (htop : a + bs.length ≤ s.xlen.size)
    (h : ∀ k, k < bs.length → Sparse.get? (α := Byte) s.params.init (a + k) = bs[k]?) :
    s.textBytes a bs.length = bs := by
  induction bs generalizing a with
  | nil => rfl
  | cons b bs ih =>
    rw [List.length_cons] at htop
    have hb : Sparse.get? (α := Byte) s.params.init a = some b := h 0 (Nat.succ_pos _)
    have hbs : s.textBytes (a + 1) bs.length = bs := ih (by omega) fun k hk => by
      rw [Nat.add_assoc, Nat.add_comm 1 k]
      exact h (k + 1) (Nat.succ_lt_succ hk)
    rw [List.length_cons, State.textBytes, if_pos (by omega), hb, hbs]

/-! ### The bytes of a word -/

/-- The bytes of a word by its number are its bits 8k+7..8k. -/
theorem wordBytes_toNat (w : BitVec 32) :
    wordBytes w.toNat = [w.extractLsb' 0 8, w.extractLsb' 8 8, w.extractLsb' 16 8, w.extractLsb' 24 8] := by
  simp [wordBytes, BitVec.extractLsb', Nat.shiftRight_eq_div_pow]

/-- The bytes of a well-formed instruction's word decode to the instruction. -/
theorem decodeBytes_wordBytes_encode {x : Xlen} {e : Ext} (h : WellFormed x e i) :
    decodeBytes x e (wordBytes (encode i).toNat) = .ok (i, []) := by
  rw [wordBytes_toNat]
  exact decodeBytes_of_ok (wordOfBytes_extract _) (decodeInvertsEncode x e i h)

/-! ### The state with a word placed -/

/-- No bit of a 32-bit word is cut off. -/
theorem State.withFetchWord_toNat (s : State) (w : BitVec 32) : s.withFetchWord 32 w.toNat = s.placeWord w.toNat := by
  rw [State.withFetchWord, Nat.mod_eq_of_lt w.isLt]

/-- The four bytes at pc are written by no store. -/
theorem State.placeWord_written (hm : s.mem.wf) (n : Nat) : (s.placeWord n).written s.pc.toNat 4 = false :=
  State.written_eq_false.2 fun x h1 h2 => (Memory.at?_forget hm _ _ x).trans (if_pos ⟨h1, h2⟩)

/-- The text at pc is the word placed, in place of what was listed there. -/
theorem State.placeWord_textBytes (htop : s.pc.toNat + 4 ≤ s.xlen.size) (n : Nat) :
    (s.placeWord n).textBytes s.pc.toNat 4 = wordBytes n := by
  refine State.textBytes_of_listed (bs := wordBytes n) htop fun k hk => ?_
  refine (get?_listBytes _ _ _ _).trans ?_
  rw [if_pos ⟨Nat.le_add_right _ _, Nat.add_lt_add_left hk _⟩, Nat.add_sub_cancel_left]

/-- The end of the placed program is not its start, as the address space holds more than four bytes. -/
theorem State.placeWord_not_atEnd (htop : s.pc.toNat + 4 ≤ s.xlen.size) (n : Nat) : (s.placeWord n).atEnd = false := by
  have hsize : 4 < s.xlen.size := by cases s.xlen <;> decide
  have hne : s.pc.toNat ≠ (s.pc.toNat + 4) % s.xlen.size := by
    rcases htop.lt_or_eq with hlt | heq
    · rw [Nat.mod_eq_of_lt hlt]
      omega
    · rw [heq, Nat.mod_self]
      omega
  exact decide_eq_false hne

/-- The step after placing a well-formed instruction's word runs that instruction. -/
theorem step_placeWord (hm : s.mem.wf) (htop : s.pc.toNat + 4 ≤ s.xlen.size) (hi : WellFormed s.xlen s.params.ext i) :
    step (s.placeWord (encode i).toNat) = yieldResult (exec i (s.placeWord (encode i).toNat).noteFetch) := by
  have hdecodes : decodeBytes s.xlen s.params.ext ((s.placeWord (encode i).toNat).textBytes s.pc.toNat 4) = .ok (i, []) := by
    rw [State.placeWord_textBytes htop]
    exact decodeBytes_wordBytes_encode hi
  obtain ⟨hstep, -⟩ := stepRunsDecodedInstruction (s.placeWord (encode i).toNat) i [] rfl
    (State.placeWord_not_atEnd htop _) (State.placeWord_written hm _) hdecodes
  exact hstep

/-- Settles O7: the placed word is fetched at pc and decodes to the instruction; the registers and pc are not placed. -/
theorem placedWordRuns : Obligations.PlacedWordRuns := by
  intro s i hm htop hi
  rw [size_eq_two_pow] at htop
  rw [State.withFetchWord_toNat]
  exact ⟨step_placeWord hm (by exact_mod_cast htop) hi, fun _ => rfl, fun _ => rfl, rfl⟩

end Sys2Proof.Machine
end
